-- ==== Sys2Proof/Word.lean ====
section
/-! DEFINITION. The word types of GSE-LINK (00_scope.md R11): bytes, the 16-bit checksum and the big-endian operand words of format H. -/

namespace Sys2Proof

/-- A byte, 8 bits (R11). -/
abbrev Byte := BitVec 8

/-- A 16-bit word: the CRC register (10_state.md R31) and the format-H field `U16` (30_encoding.md R130). -/
abbrev Word16 := BitVec 16

/-- A 32-bit word: the format-H field `U32` (30_encoding.md R130). -/
abbrev Word32 := BitVec 32

end Sys2Proof
end

