-- ==== Sys2Proof/Syntax.lean ====
section
/-! DEFINITION. The operations of GSE-LINK, one constructor for each row of the operation table (30_encoding.md R122, R131, R111, R128). -/

namespace Sys2Proof

/-- A radio property record `(GROUP, COUNT, START, VALUES)` (10_state.md R62). COUNT is not checked against VALUES (30_encoding.md R124). -/
structure PropRecord where
  group : Byte
  count : Byte
  start : Byte
  values : List Byte
  deriving DecidableEq, Repr, Inhabited

/-- The operations. `inst` is the UART controller instance of a `UF.*` or `UR.*` word (30_encoding.md R130), or the instance an agent belongs to. -/
inductive Instr where
  /-- `CRC.INIT` (40_crc.md R151). -/
  | crcInit
  /-- `CRC.UPDATE b` (40_crc.md R152). -/
  | crcUpdate (b : Byte)
  /-- `CRC.READ` (40_crc.md R153). -/
  | crcRead
  /-- `CRC.SUM s` (40_crc.md R154). -/
  | crcSum (s : List Byte)
  /-- `FRM.BUILD p` (41_framer.md R171). -/
  | frmBuild (p : List Byte)
  /-- `FRM.PARSE s` (41_framer.md R174). -/
  | frmParse (s : List Byte)
  /-- `UF.CONSTRUCT baud` (42_uart_framed.md R190). -/
  | ufConstruct (inst : Byte) (baud : Word32)
  /-- `UF.SEND p` (42_uart_framed.md R191). -/
  | ufSend (inst : Byte) (p : List Byte)
  /-- `UF.READ_FRAME t`, the timeout in milliseconds or `NONE` (42_uart_framed.md R198). -/
  | ufReadFrame (inst : Byte) (t : Option Word32)
  /-- `UF.SHUTDOWN` (42_uart_framed.md R199). -/
  | ufShutdown (inst : Byte)
  /-- `UR.CONSTRUCT baud, databits, stopbits, parity`, the parity as its ASCII letter (43_uart_raw.md R220). -/
  | urConstruct (inst : Byte) (baud : Word32) (databits : Byte) (stopbits : Byte) (parity : Byte)
  /-- `UR.WRITE d` (43_uart_raw.md R221). -/
  | urWrite (inst : Byte) (d : List Byte)
  /-- `UR.READ` (43_uart_raw.md R225). -/
  | urRead (inst : Byte)
  /-- `UR.SHUTDOWN` (43_uart_raw.md R227). -/
  | urShutdown (inst : Byte)
  /-- `RD.CONSTRUCT channel, props` (44_radio_handshake.md R260). -/
  | rdConstruct (channel : Word16) (props : List PropRecord)
  /-- `RD.TRANSMIT packets` (45_radio_txrx.md R280). -/
  | rdTransmit (packets : List (List Byte))
  /-- `RD.RECEIVE` (45_radio_txrx.md R290). -/
  | rdReceive
  /-- `RD.SHUTDOWN` (45_radio_txrx.md R291). -/
  | rdShutdown
  /-- `UF_RX.STEP`: one iteration of the background receiver (42_uart_framed.md R196). -/
  | ufRxStep (inst : Byte)
  /-- `UR_TX.STEP`: one row of the raw transmit agent (43_uart_raw.md R223). -/
  | urTxStep (inst : Byte)
  /-- `UR_RX.STEP`: one row of the raw receive agent (43_uart_raw.md R224). -/
  | urRxStep (inst : Byte)
  /-- `RD_TX.STEP`: one row of the radio transmit agent (45_radio_txrx.md R283). `giveUp` chooses the row "`SHUTDOWN = 1`: give up the rest of the batch" where it is enabled together with the next radio step (R293). -/
  | rdTxStep (giveUp : Bool)
  /-- `RD_IRQ.STEP`: one row of the receive handler (45_radio_txrx.md R287). -/
  | rdIrqStep
  /-- `RC.POWER_UP` (44_radio_handshake.md R250). -/
  | rcPowerUp
  /-- `RC.READ_STATUS`, `k` response bytes (44_radio_handshake.md R251). -/
  | rcReadStatus (k : Nat)
  /-- `RC.GPIO_CFG` (44_radio_handshake.md R252). -/
  | rcGpioCfg
  /-- `RC.SET_PROPERTY p` (44_radio_handshake.md R253). -/
  | rcSetProperty (p : PropRecord)
  /-- `RC.CLEAR_TX_FIFO` (44_radio_handshake.md R254). -/
  | rcClearTxFifo
  /-- `RC.WRITE_TX_FIFO pkt` (44_radio_handshake.md R255). -/
  | rcWriteTxFifo (pkt : List Byte)
  /-- `RC.START_TX ch, n` (44_radio_handshake.md R256). -/
  | rcStartTx (ch : Byte) (n : Nat)
  /-- `RC.START_RX ch` (44_radio_handshake.md R257). -/
  | rcStartRx (ch : Byte)
  /-- `RC.RX_LEN` (44_radio_handshake.md R258). -/
  | rcRxLen
  /-- `RC.READ_RX_FIFO n` (44_radio_handshake.md R259). -/
  | rcReadRxFifo (n : Nat)
  /-- `FRAME`: a frame on the serial line of instance `inst`, its LEN the number of payload bytes (30_encoding.md R111). -/
  | frame (inst : Byte) (payload : List Byte) (crcLo crcHi : Byte)
  /-- `RXLEN`: the received-packet length response (30_encoding.md R128). -/
  | rxlen (hi lo : Byte)
  deriving DecidableEq, Repr

end Sys2Proof
end

