-- ==== Sys2Proof/Config.lean ====
section
/-! DEFINITION. What an implementation fixes: the constants of 00_scope.md R9, the open parameters of R10, and the free values of the environment and of everything the spec leaves unspecified. -/

namespace Sys2Proof

/-- The start marker of a frame (R9). -/
abbrev sof : Byte := 0x7E
/-- CRC_POLY (R9). -/
abbrev crcPoly : Word16 := 0xA001
/-- CRC_INIT (R9). -/
abbrev crcInitial : Word16 := 0xFFFF
/-- PAYLOAD_MAX (R9). -/
abbrev payloadMax : Nat := 255
/-- NPROPS (R9). -/
abbrev nProps : Nat := 31
/-- PKT_MIN (R9). -/
abbrev pktMin : Nat := 1
/-- PKT_MAX (R9). -/
abbrev pktMax : Nat := 64

/-- The clocking mode of the SPI port. R10 says only "enumeration" and no source names its members (91_not_in_source.md N22, D30 OPEN): the four modes are the model's choice (DESIGN CHOICE, log entry 42). No rule depends on it (20_memory.md R83). -/
inductive SpiMode where
  | mode0 | mode1 | mode2 | mode3
  deriving DecidableEq, Repr, Inhabited

/-- The header of an SPI command: a non-empty byte string (30_encoding.md R120). -/
structure Header where
  first : Byte
  rest : List Byte
  deriving DecidableEq, Repr, Inhabited

/-- The open parameters of R10 that are data. `intOverride` and `intOverrideMore` are ARGS_INT_OVERRIDE, a list of at least one record (44_radio_handshake.md R266). Times are naturals in a unit the source does not give. -/
structure Config where
  deTxLevel : Bool
  reTxLevel : Bool
  rstAssertLevel : Bool
  echoInTx : Bool
  spiMode : SpiMode
  spiMsbFirst : Bool
  ctsReady : Byte
  opcPowerUp : Header
  opcReadStatus : Header
  opcGpioCfg : Header
  opcSetProperty : Header
  opcClearTxFifo : Header
  opcWriteTxFifo : Header
  opcStartTx : Header
  opcStartRx : Header
  opcRxLen : Header
  opcReadRxFifo : Header
  argsPowerUp : List Byte
  argsGpioCfg : List Byte
  intOverride : PropRecord
  intOverrideMore : List PropRecord
  tBackoff : Nat
  tJoin : Nat
  tRxReady : Nat
  tPoll : Nat
  tResetHold : Nat
  tResetSettle : Nat
  tShutdown : Nat
  deriving DecidableEq, Repr, Inhabited

/-- ARGS_INT_OVERRIDE as a list (R266). -/
def Config.intOverrides (c : Config) : List PropRecord := c.intOverride :: c.intOverrideMore

/-- The parameters of the machine after reset: a constant of which nothing is known (R10, "None of them may be given a value silently"). -/
opaque Config.board : Config

/-- How many UART controller instances the block has: "zero or more", a parameter with no value in the spec (10_state.md R30; log entry 4). -/
opaque Config.uartCount : Nat

/-- ARGS_START_TX(ch, n), supplied by the configuration (30_encoding.md R123). -/
opaque Config.argsStartTx : Byte → Nat → List Byte

/-- ARGS_START_RX(ch), supplied by the configuration (30_encoding.md R123). -/
opaque Config.argsStartRx : Byte → List Byte

/-- A byte of the radio chip's answer: `draw(byte)` (20_memory.md R99). -/
opaque Config.radioByte : Nat → Byte

/-- How many status reads beyond the first a ready-poll makes before T_POLL has elapsed (44_radio_handshake.md R246). -/
opaque Config.pollLimit : Nat → Nat

/-- A packet of which the rules give no byte (log entry 9). -/
opaque Config.stalePacket : Nat → List Byte

/-- The state of the reset line, as one of three codes, after a failed construction (44_radio_handshake.md R270). -/
opaque Config.failedRst : Nat → Fin 3

/-- The value of SPI_OPEN after a failed construction (44_radio_handshake.md R270). -/
opaque Config.failedSpiOpen : Nat → Bool

end Sys2Proof
end

