-- ==== Sys2Proof/Decode.lean ====
section
/-! DEFINITION. The decoder of format H (30_encoding.md R130, R131, R134), of frames on the line (R111) and of the radio length (R128); then the encoder, written from the same tables, and the bytes of the SPI commands (R120 to R124). -/

namespace Sys2Proof

/-! ### Bytes and big-endian words (20_memory.md R83) -/

/-- The least significant byte of a 16-bit value. -/
def loByte (w : Word16) : Byte := w.extractLsb' 0 8

/-- The most significant byte of a 16-bit value. -/
def hiByte (w : Word16) : Byte := w.extractLsb' 8 8

/-- `{hi, lo}` (00_scope.md R11). -/
def word16 (hi lo : Byte) : Word16 := hi ++ lo

/-- A `U16`: big-endian (R130). -/
def u16Bytes (w : Word16) : List Byte := [hiByte w, loByte w]

/-- A `U32`: big-endian (R130). -/
def u32Bytes (w : Word32) : List Byte :=
  [w.extractLsb' 24 8, w.extractLsb' 16 8, w.extractLsb' 8 8, w.extractLsb' 0 8]

/-- The count field of `BYTES` and `LIST`, a `U16` (R130). -/
def countBytes (n : Nat) : List Byte := u16Bytes (BitVec.ofNat 16 n)

/-- The radio length `256 * hi + lo` (30_encoding.md R128). -/
def rxLenValue (hi lo : Byte) : Nat := 256 * hi.toNat + lo.toNat

/-! ### The decoder -/

/-- Why a sequence of bytes is no instruction. -/
inductive DecodeError where
  /-- The word or a field of it ends too soon. -/
  | tooShort
  /-- CODE is not in 30_encoding.md R131. -/
  | unknownCode (code : Byte)
  /-- INST is not 0 on an operation without instances (R130). -/
  | instNotZero (code : Byte)
  /-- The tag of an `OPT` is neither 0x00 nor 0x01 (R130). -/
  | badTag (tag : Byte)
  /-- Bytes stand after the operand field (log entry 18). -/
  | trailingBytes
  /-- A frame does not begin with the start marker (R111). -/
  | noMarker
  deriving DecidableEq, Repr

/-- What a field parser answers: the field and the bytes after it. -/
abbrev Parse (α : Type) := Except DecodeError (α × List Byte)

/-- `BYTE`. -/
def takeByte : List Byte → Parse Byte
  | b :: rest => .ok (b, rest)
  | [] => .error .tooShort

/-- `U16`, big-endian. -/
def takeU16 : List Byte → Parse Word16
  | hi :: lo :: rest => .ok (word16 hi lo, rest)
  | _ => .error .tooShort

/-- `U32`, big-endian. -/
def takeU32 : List Byte → Parse Word32
  | a :: b :: c :: d :: rest => .ok (a ++ b ++ c ++ d, rest)
  | _ => .error .tooShort

/-- `n` bytes. -/
def takeExact (n : Nat) (bs : List Byte) : Parse (List Byte) :=
  if n ≤ bs.length then .ok (bs.take n, bs.drop n) else .error .tooShort

/-- `BYTES`: a `U16` count, then that many bytes. -/
def takeBytes (bs : List Byte) : Parse (List Byte) :=
  match takeU16 bs with
  | .ok (n, rest) => takeExact n.toNat rest
  | .error e => .error e

/-- `n` items, each read by `item`. -/
def takeMany {α : Type} (item : List Byte → Parse α) : Nat → List Byte → Parse (List α)
  | 0, bs => .ok ([], bs)
  | n + 1, bs =>
    match item bs with
    | .error e => .error e
    | .ok (x, rest) =>
      match takeMany item n rest with
      | .error e => .error e
      | .ok (xs, rest') => .ok (x :: xs, rest')

/-- A `U16` count, then that many items: `LIST` when the items are `BYTES`. -/
def takeList {α : Type} (item : List Byte → Parse α) (bs : List Byte) : Parse (List α) :=
  match takeU16 bs with
  | .ok (n, rest) => takeMany item n.toNat rest
  | .error e => .error e

/-- `BYTE group, BYTE count, BYTE start, BYTES values` (R131, RD.CONSTRUCT). -/
def takeRecord : List Byte → Parse PropRecord
  | g :: c :: st :: rest =>
    match takeBytes rest with
    | .ok (vs, rest') => .ok (⟨g, c, st, vs⟩, rest')
    | .error e => .error e
  | _ => .error .tooShort

/-- `OPT(U32)`: tag 0x00 for absent, 0x01 then the value (R130). -/
def takeOptU32 : List Byte → Parse (Option Word32)
  | tag :: rest =>
    if tag = 0x00 then .ok (none, rest)
    else if tag = 0x01 then
      match takeU32 rest with
      | .ok (v, rest') => .ok (some v, rest')
      | .error e => .error e
    else .error (.badTag tag)
  | [] => .error .tooShort

/-- Applies a constructor to a parsed field. -/
def field {α β : Type} (f : α → β) : Parse α → Parse β
  | .ok (x, rest) => .ok (f x, rest)
  | .error e => .error e

/-- An operation without operands. -/
def noField (i : Instr) (bs : List Byte) : Parse Instr := .ok (i, bs)

/-- An operation without instances: INST must be 0 (R130, R134). -/
def zeroInst (code inst : Byte) (p : Parse Instr) : Parse Instr :=
  if inst = 0 then p else .error (.instNotZero code)

/-- The operand field of `UR.CONSTRUCT` (R131). -/
def takeUrConfig (inst : Byte) (bs : List Byte) : Parse Instr :=
  match takeU32 bs with
  | .ok (baud, d :: st :: p :: rest) => .ok (.urConstruct inst baud d st p, rest)
  | .ok _ => .error .tooShort
  | .error e => .error e

/-- The operand field of `RD.CONSTRUCT` (R131). -/
def takeRdConfig (bs : List Byte) : Parse Instr :=
  match takeU16 bs with
  | .ok (ch, rest) => field (Instr.rdConstruct ch) (takeList takeRecord rest)
  | .error e => .error e

/-- The operand field that CODE selects (the table of R131). -/
def decodeOperands (code inst : Byte) (bs : List Byte) : Parse Instr :=
  if code = 0x01 then zeroInst code inst (noField .crcInit bs)
  else if code = 0x02 then zeroInst code inst (field .crcUpdate (takeByte bs))
  else if code = 0x03 then zeroInst code inst (noField .crcRead bs)
  else if code = 0x04 then zeroInst code inst (field .crcSum (takeBytes bs))
  else if code = 0x10 then zeroInst code inst (field .frmBuild (takeBytes bs))
  else if code = 0x11 then zeroInst code inst (field .frmParse (takeBytes bs))
  else if code = 0x20 then field (.ufConstruct inst) (takeU32 bs)
  else if code = 0x21 then field (.ufSend inst) (takeBytes bs)
  else if code = 0x22 then field (.ufReadFrame inst) (takeOptU32 bs)
  else if code = 0x23 then noField (.ufShutdown inst) bs
  else if code = 0x30 then takeUrConfig inst bs
  else if code = 0x31 then field (.urWrite inst) (takeBytes bs)
  else if code = 0x32 then noField (.urRead inst) bs
  else if code = 0x33 then noField (.urShutdown inst) bs
  else if code = 0x40 then zeroInst code inst (takeRdConfig bs)
  else if code = 0x41 then zeroInst code inst (field .rdTransmit (takeList takeBytes bs))
  else if code = 0x42 then zeroInst code inst (noField .rdReceive bs)
  else if code = 0x43 then zeroInst code inst (noField .rdShutdown bs)
  else .error (.unknownCode code)

/-- Reads one format-H word from the front of `bs`: `[CODE][INST]` and the operand field (R130). The length is known from CODE and the counts (R135). -/
def decodePrefix : List Byte → Parse Instr
  | code :: inst :: rest => decodeOperands code inst rest
  | _ => .error .tooShort

/-- The decoder of the host port: exactly one format-H word (R130, R134 item 6). -/
def decodeHost (bs : List Byte) : Except DecodeError Instr :=
  match decodePrefix bs with
  | .ok (i, []) => .ok i
  | .ok (_, _ :: _) => .error .trailingBytes
  | .error e => .error e

/-- The decoder of the serial line of instance `inst`: exactly one frame, its length known from LEN (R111, R113, R135). -/
def decodeLine (inst : Byte) : List Byte → Except DecodeError Instr
  | m :: len :: rest =>
    if m = sof then
      match takeExact len.toNat rest with
      | .ok (p, [lo, hi]) => .ok (.frame inst p lo hi)
      | .ok (_, _ :: _ :: _ :: _) => .error .trailingBytes
      | .ok _ => .error .tooShort
      | .error e => .error e
    else .error .noMarker
  | _ => .error .tooShort

/-- The decoder of the radio-length response (R128). -/
def decodeRxLen : List Byte → Except DecodeError Instr
  | [hi, lo] => .ok (.rxlen hi lo)
  | _ :: _ :: _ :: _ => .error .trailingBytes
  | _ => .error .tooShort

/-! ### The bytes of the SPI commands (30_encoding.md R120 to R124) -/

/-- The bytes of a header. -/
def Header.bytes (h : Header) : List Byte := h.first :: h.rest

/-- `RC.POWER_UP` (R122). -/
def cmdPowerUp (c : Config) : List Byte := c.opcPowerUp.bytes ++ c.argsPowerUp

/-- `RC.READ_STATUS` (R121). -/
def cmdReadStatus (c : Config) : List Byte := c.opcReadStatus.bytes

/-- `RC.GPIO_CFG` (R122). -/
def cmdGpioCfg (c : Config) : List Byte := c.opcGpioCfg.bytes ++ c.argsGpioCfg

/-- `RC.SET_PROPERTY`, format P (R124). -/
def cmdSetProperty (c : Config) (p : PropRecord) : List Byte :=
  c.opcSetProperty.bytes ++ [p.group, p.count, p.start] ++ p.values

/-- `RC.CLEAR_TX_FIFO` (R122). -/
def cmdClearTxFifo (c : Config) : List Byte := c.opcClearTxFifo.bytes

/-- `RC.WRITE_TX_FIFO` (R122). -/
def cmdWriteTxFifo (c : Config) (pkt : List Byte) : List Byte := c.opcWriteTxFifo.bytes ++ pkt

/-- `RC.START_TX` (R122, R123). -/
def cmdStartTx (c : Config) (ch : Byte) (n : Nat) : List Byte :=
  c.opcStartTx.bytes ++ Config.argsStartTx ch n

/-- `RC.START_RX` (R122, R123). -/
def cmdStartRx (c : Config) (ch : Byte) : List Byte := c.opcStartRx.bytes ++ Config.argsStartRx ch

/-- `RC.RX_LEN` (R122). -/
def cmdRxLen (c : Config) : List Byte := c.opcRxLen.bytes

/-- `RC.READ_RX_FIFO` (R122). -/
def cmdReadRxFifo (c : Config) : List Byte := c.opcReadRxFifo.bytes

/-! ### The encoder -/

/-- `BYTES` (R130). -/
def encBytes (s : List Byte) : List Byte := countBytes s.length ++ s

/-- One record of `RD.CONSTRUCT` (R131). -/
def encRecord (p : PropRecord) : List Byte := p.group :: p.count :: p.start :: encBytes p.values

/-- `OPT(U32)` (R130). -/
def encOptU32 : Option Word32 → List Byte
  | none => [0x00]
  | some v => 0x01 :: u32Bytes v

/-- A count and the items (R130). -/
def encList {α : Type} (item : α → List Byte) (xs : List α) : List Byte :=
  countBytes xs.length ++ (xs.map item).flatten

/-- The bytes of an instruction: a format-H word (R131), the bytes out of an SPI command (R122), a frame (R111) or a length response (R128). An agent step has no encoding (R131) and gives no byte. -/
def encode (c : Config) : Instr → List Byte
  | .crcInit => [0x01, 0x00]
  | .crcUpdate b => [0x02, 0x00, b]
  | .crcRead => [0x03, 0x00]
  | .crcSum s => 0x04 :: 0x00 :: encBytes s
  | .frmBuild p => 0x10 :: 0x00 :: encBytes p
  | .frmParse s => 0x11 :: 0x00 :: encBytes s
  | .ufConstruct inst baud => 0x20 :: inst :: u32Bytes baud
  | .ufSend inst p => 0x21 :: inst :: encBytes p
  | .ufReadFrame inst t => 0x22 :: inst :: encOptU32 t
  | .ufShutdown inst => [0x23, inst]
  | .urConstruct inst baud d st p => 0x30 :: inst :: (u32Bytes baud ++ [d, st, p])
  | .urWrite inst d => 0x31 :: inst :: encBytes d
  | .urRead inst => [0x32, inst]
  | .urShutdown inst => [0x33, inst]
  | .rdConstruct ch props => 0x40 :: 0x00 :: (u16Bytes ch ++ encList encRecord props)
  | .rdTransmit ps => 0x41 :: 0x00 :: encList encBytes ps
  | .rdReceive => [0x42, 0x00]
  | .rdShutdown => [0x43, 0x00]
  | .ufRxStep _ => []
  | .urTxStep _ => []
  | .urRxStep _ => []
  | .rdTxStep _ => []
  | .rdIrqStep => []
  | .rcPowerUp => cmdPowerUp c
  | .rcReadStatus _ => cmdReadStatus c
  | .rcGpioCfg => cmdGpioCfg c
  | .rcSetProperty p => cmdSetProperty c p
  | .rcClearTxFifo => cmdClearTxFifo c
  | .rcWriteTxFifo pkt => cmdWriteTxFifo c pkt
  | .rcStartTx ch n => cmdStartTx c ch n
  | .rcStartRx ch => cmdStartRx c ch
  | .rcRxLen => cmdRxLen c
  | .rcReadRxFifo _ => cmdReadRxFifo c
  | .frame _ payload lo hi => sof :: BitVec.ofNat 8 payload.length :: (payload ++ [lo, hi])
  | .rxlen hi lo => [hi, lo]

/-! ### Words of the operation table (log entry 37) -/

/-- `n` bytes of a number, least significant first. -/
def bytesOfNat : Nat → Nat → List Byte
  | 0, _ => []
  | n + 1, w => BitVec.ofNat 8 w :: bytesOfNat n (w / 256)

/-- `n` 16-bit words of a number, the least significant first, each as its high byte and then its low byte: the table puts CODE in bits 15 to 8 and INST in bits 7 to 0. -/
def pairsOfNat : Nat → Nat → List Byte
  | 0, _ => []
  | n + 1, w => BitVec.ofNat 8 (w / 256) :: BitVec.ofNat 8 w :: pairsOfNat n (w / 65536)

/-- Sixteen zero bytes: as many as the fixed-size operand fields can need. -/
def zeroPad : List Byte := List.replicate 16 0

/-- The bytes a table word stands for: a row of 8 bits is a byte of the serial line, a wider one is format H. Every byte above the table's bits is zero, up to the end of the instruction. -/
def tableBytes (nbits w : Nat) : List Byte :=
  if nbits ≤ 8 then
    match bytesOfNat 1 w with
    | m :: _ => m :: [0, 0, 0]
    | [] => []
  else
    let all := pairsOfNat ((nbits + 15) / 16) w ++ zeroPad
    match decodePrefix all with
    | .ok (_, rest) => all.take (all.length - rest.length)
    | .error _ => pairsOfNat ((nbits + 15) / 16) w

/-- The instruction the decoder reads from a word of the operation table. -/
def decodeTableWord (nbits w : Nat) : Option Instr :=
  if nbits ≤ 8 then
    match decodeLine 0 (tableBytes nbits w) with
    | .ok i => some i
    | .error _ => none
  else
    match decodeHost (tableBytes nbits w) with
    | .ok i => some i
    | .error _ => none

end Sys2Proof
end

