-- ==== Sys2Proof/Machine/State.lean ====
section
/-! DEFINITION. The state of GSE-LINK (10_state.md), as plain data: every element of the reset table R70, the histories and buffers that the rules name, the operations in progress, and the model's own script of what happens next. -/

namespace Sys2Proof.Machine

/-! ### Values of the registers -/

/-- LC of a UART controller (R34). -/
inductive UartLc where
  | unconstructed | running | shut
  deriving DecidableEq, Repr, Inhabited

/-- LC of the radio controller (R34). -/
inductive RadioLc where
  | unconstructed | constructing | running | failed | shut
  deriving DecidableEq, Repr, Inhabited

/-- MODE of a UART controller (R38). -/
inductive Mode where
  | framed | raw
  deriving DecidableEq, Repr, Inhabited

/-- PARITY (R38): none, even, odd, mark, space (30_encoding.md R115). -/
inductive Parity where
  | n | e | o | m | s
  deriving DecidableEq, Repr, Inhabited

/-- DIR (R41). -/
inductive Dir where
  | rx | tx | released
  deriving DecidableEq, Repr, Inhabited

/-- RST (R60). -/
inductive RstLine where
  | asserted | deasserted | released
  deriving DecidableEq, Repr, Inhabited

/-- The agents that can hold a mutex (00_scope.md R18); a host caller is known by the ticket of its operation. -/
inductive Agent where
  | host (ticket : Nat)
  | ufRx (inst : Nat)
  | urTx (inst : Nat)
  | urRx (inst : Nat)
  | rdTx
  | rdIrq
  deriving DecidableEq, Repr, Inhabited

/-- A mutex: `FREE` or `HELD(agent)` (R36). -/
inductive Mutex where
  | free
  | held (a : Agent)
  deriving DecidableEq, Repr, Inhabited

/-- SEQ_SEND (R33, 42_uart_framed.md R192). IDLE is the value when no `UF.SEND` is in progress. -/
inductive SendSeq where
  | idle | waitLock | toTx | write (k : Nat) | flush | hold | toRx | done
  deriving DecidableEq, Repr, Inhabited

/-- SEQ_SCAN (R33). -/
inductive ScanSeq where
  | hunt | len | data | crcLo | crcHi
  deriving DecidableEq, Repr, Inhabited

/-- SEQ_UFRX (R33). -/
inductive UfRxSeq where
  | running | backoff | stopped
  deriving DecidableEq, Repr, Inhabited

/-- SEQ_URTX (R33). -/
inductive UrTxSeq where
  | wait | drained | writing | txOff | stopped
  deriving DecidableEq, Repr, Inhabited

/-- SEQ_URRX (R33); DRAINING carries the bytes taken (43_uart_raw.md R224). -/
inductive UrRxSeq where
  | waitReady | draining (t : List Byte) | stopped
  deriving DecidableEq, Repr, Inhabited

/-- The parts of the reset pulse of S2_RESET: "assert, hold, release, settle" (44_radio_handshake.md R263). -/
inductive Pulse where
  | assert | hold | release | settle
  deriving DecidableEq, Repr, Inhabited

/-- SEQ_CONS (R33). S2_RESET carries the part of the pulse, S6_INT the index in ARGS_INT_OVERRIDE (log entry 12). -/
inductive ConsSeq where
  | s0Guard | s1Parse | s2Reset (p : Pulse) | s3PowerUp | s4Gpio | s5Prop (i : Nat) | s6Int (i : Nat)
  | s7Irq | s8Rx | s9Start | done | failed
  deriving DecidableEq, Repr, Inhabited

/-- The three radio steps of a packet (45_radio_txrx.md R283). -/
inductive PktStep where
  | clear | write | start
  deriving DecidableEq, Repr, Inhabited

/-- SEQ_RDTX (R33). -/
inductive RdTxSeq where
  | wait | batch (j : Nat) (st : PktStep) | rearm | stopped
  deriving DecidableEq, Repr, Inhabited

/-- SEQ_RDIRQ (R33); DATA carries the length, STORE the data (45_radio_txrx.md R287). -/
inductive RdIrqSeq where
  | idle | len | data (n : Nat) | store (d : List Byte)
  deriving DecidableEq, Repr, Inhabited

/-- SEQ_POLL (R33). -/
inductive PollSeq where
  | idle | polling | ready | timeout
  deriving DecidableEq, Repr, Inhabited

/-- The variable `res` of a radio step (44_radio_handshake.md R247): READY with the response bytes, TIMEOUT or CLOSED; `held` while SPILOCK is not FREE, and `none` before the first step. -/
inductive StepRes where
  | none | held | closed | ready (resp : List Byte) | timeout
  deriving DecidableEq, Repr, Inhabited

/-- The events of DIAG (R44). -/
inductive DiagEvent where
  | hwReadErr
  deriving DecidableEq, Repr, Inhabited

/-! ### Responses (60_exceptions.md R310, R311; 30_encoding.md R130) -/

/-- The fields that E_CONFIG names, and the count found for `properties` (R311). -/
inductive ConfigField where
  | baud | databits | stopbits | parity | channel | properties (found : Nat)
  deriving DecidableEq, Repr, Inhabited

/-- The construction step that E_HANDSHAKE names, with the property index for step 5 (R311). -/
inductive HandshakeStep where
  | powerUp | gpio | prop (i : Nat) | int | rx
  deriving DecidableEq, Repr, Inhabited

/-- The error responses (R310) with what each carries (R311). -/
inductive Err where
  | size (index length : Nat)
  | config (f : ConfigField)
  | handshake (st : HandshakeStep)
  | state (lc : RadioLc)
  | illegal
  deriving DecidableEq, Repr, Inhabited

/-- The result field of an `OK` response (30_encoding.md R131). -/
inductive Result where
  | none
  | u16 (w : Word16)
  | bytes (b : List Byte)
  | opt (b : Option (List Byte))
  | list (l : List (List Byte))
  deriving DecidableEq, Repr, Inhabited

/-- "the operation's result or an error response, never both" (20_memory.md R102). -/
inductive Response where
  | ok (r : Result)
  | error (e : Err)
  deriving DecidableEq, Repr, Inhabited

/-! ### Operations in progress -/

/-- The steps of `UF.SHUTDOWN` after step 1 (42_uart_framed.md R199). -/
inductive UfShut where
  | join | close | release
  deriving DecidableEq, Repr, Inhabited

/-- The steps of `UR.SHUTDOWN` after step 1 (43_uart_raw.md R227). -/
inductive UrShut where
  | drain | flag | join | close
  deriving DecidableEq, Repr, Inhabited

/-- The steps of `RD.SHUTDOWN` after step 1 (45_radio_txrx.md R291). -/
inductive RdShut where
  | drain | flag | lock | close | finish
  deriving DecidableEq, Repr, Inhabited

/-- A host operation that has been accepted and not yet answered. -/
inductive HostOp where
  /-- `UF.SEND` with its frame and its SEQ_SEND. -/
  | send (inst : Nat) (frame : List Byte) (seq : SendSeq)
  /-- `UF.READ_FRAME` waiting for a frame; `bounded` when it has a timeout. -/
  | readFrame (inst : Nat) (bounded : Bool)
  /-- `UF.SHUTDOWN` after its step 1. -/
  | ufShutdown (inst : Nat) (st : UfShut)
  /-- `UR.WRITE` waiting for TXLOCK. -/
  | urWrite (inst : Nat) (d : List Byte)
  /-- `UR.READ` waiting for RXLOCK. -/
  | urRead (inst : Nat)
  /-- `UR.SHUTDOWN` after its step 1. -/
  | urShutdown (inst : Nat) (st : UrShut)
  /-- `RD.CONSTRUCT` after S0, with its operands; its step is SEQ_CONS. -/
  | rdConstruct (channel : Word16) (props : List PropRecord)
  /-- `RD.TRANSMIT` waiting for TXQLOCK. -/
  | rdTransmit (packets : List (List Byte))
  /-- `RD.RECEIVE` waiting for RXLLOCK. -/
  | rdReceive
  /-- `RD.SHUTDOWN` after its step 1. -/
  | rdShutdown (st : RdShut)
  deriving DecidableEq, Repr, Inhabited

/-! ### What happens next -/

/-- The autonomous agents' steps as the scheduler names them. -/
inductive AgentStep where
  | ufRx (inst : Byte)
  | urTx (inst : Byte)
  | urRx (inst : Byte)
  | rdTx (giveUp : Bool)
  | rdIrq
  deriving DecidableEq, Repr, Inhabited

/-- One thing that can happen next (log entry 1): the scheduler's and the environment's choices (00_scope.md R16, 20_memory.md R98 to R102). -/
inductive Stimulus where
  /-- The host issues the bytes of a format-H word. That the host issues nothing but words, so that no step performs an operation whose operand is longer than a `U16` count can say, is the model's choice (DESIGN CHOICE, log entry 43); `exec` takes any length. -/
  | issue (word : List Byte)
  /-- The operation with this ticket takes its next row; `timeout` chooses the TIMEOUT exit of a `wait_timeout` whose condition is false (R101). -/
  | resume (ticket : Nat) (timeout : Bool)
  /-- An agent takes a step. -/
  | agent (a : AgentStep)
  /-- The serial line of an instance carries these bytes (R98). -/
  | line (inst : Byte) (bytes : List Byte)
  /-- The UART of an instance reports a read error (42_uart_framed.md R197). -/
  | lineError (inst : Byte)
  /-- The IRQ input takes this level (45_radio_txrx.md R286). -/
  | irq (level : Bool)
  /-- Hardware reset (70_reset_and_hazards.md R350). As a stimulus of its own it falls between two rows and never inside one, which is the model's choice (DESIGN CHOICE, log entry 48). -/
  | hardReset
  deriving DecidableEq, Repr, Inhabited

/-! ### The state -/

/-- One UART controller instance with its line. -/
structure Uart where
  /-- LC (R34). -/
  lc : UartLc
  /-- MODE (R38). -/
  mode : Mode
  /-- BAUD (R38). -/
  baud : Nat
  /-- DATABITS (R38). -/
  databits : Nat
  /-- STOPBITS (R38). -/
  stopbits : Nat
  /-- PARITY (R38). -/
  parity : Parity
  /-- UART_OPEN (R39). -/
  uartOpen : Bool
  /-- DIR (R41). -/
  dir : Dir
  /-- RUN (R35). -/
  run : Bool
  /-- SHUTREQ (R35). -/
  shutReq : Bool
  /-- SENDLOCK (R36). -/
  sendLock : Mutex
  /-- TXLOCK (R36). -/
  txLock : Mutex
  /-- RXLOCK (R36). -/
  rxLock : Mutex
  /-- RXBUF (R42). -/
  rxBuf : List Byte
  /-- RXQ (R43). -/
  rxq : List (List Byte)
  /-- SEQ_SCAN (R33). -/
  seqScan : ScanSeq
  /-- FS_N (R32). -/
  fsN : Byte
  /-- FS_CNT (R32), 9 bits. -/
  fsCnt : BitVec 9
  /-- FS_CRC (R31, R32). -/
  fsCrc : Word16
  /-- FS_LO (R32). -/
  fsLo : Byte
  /-- FS_PAY (R32). -/
  fsPay : List Byte
  /-- SEQ_UFRX (R33). -/
  seqUfRx : UfRxSeq
  /-- DIAG (R44). -/
  diag : List DiagEvent
  /-- TXPEND (R45). -/
  txPend : List Byte
  /-- RXACC (R46). -/
  rxAcc : List Byte
  /-- TXBATCH (R47). -/
  txBatch : List Byte
  /-- SEQ_URTX (R33). -/
  seqUrTx : UrTxSeq
  /-- SEQ_URRX (R33). -/
  seqUrRx : UrRxSeq
  /-- LINE_OUT: the bytes put on the bus, each with the DIR at the time (R40). -/
  lineOut : List (Byte × Dir)
  /-- LINE_IN: the bytes that reached the receiver (R40). -/
  lineIn : List Byte
  /-- `UartRxAvail()`: received and not yet taken (00_scope.md R15). -/
  rxAvail : List Byte
  /-- The UART reports a read error that UF_RX has not yet seen (42_uart_framed.md R196; log entry 14). -/
  readErr : Bool
  deriving DecidableEq, Repr

/-- The radio controller. -/
structure Radio where
  /-- LC (R34). -/
  lc : RadioLc
  /-- ALLOC (R35). -/
  alloc : Bool
  /-- SHUTDOWN (R35). -/
  shutdown : Bool
  /-- IRQ_EN (R35). -/
  irqEn : Bool
  /-- IRQ_PEND (R67). -/
  irqPend : Nat
  /-- The last level of the IRQ input, the edge detector's memory (45_radio_txrx.md R286; log entry 25). -/
  irqLine : Bool
  /-- SENT_ANY (R35). -/
  sentAny : Bool
  /-- CHANNEL (R61). -/
  channel : Byte
  /-- T_POLL (R61). -/
  tPoll : Nat
  /-- T_SHUTDOWN (R61). -/
  tShutdown : Nat
  /-- T_RESET_HOLD (R61). -/
  tResetHold : Nat
  /-- T_RESET_SETTLE (R61). -/
  tResetSettle : Nat
  /-- PROPS (R62). -/
  props : List PropRecord
  /-- TXQ (R63). -/
  txq : List (List Byte)
  /-- RXLIST (R64). -/
  rxList : List (List Byte)
  /-- TXBATCH_R (R65). -/
  txBatchR : List (List Byte)
  /-- TXIDX (R65). -/
  txIdx : Nat
  /-- SPI_OPEN (R66). -/
  spiOpen : Bool
  /-- RST (R60). -/
  rst : RstLine
  /-- SPILOCK (R36). -/
  spiLock : Mutex
  /-- TXQLOCK (R36). -/
  txqLock : Mutex
  /-- RXLLOCK (R36). -/
  rxlLock : Mutex
  /-- SEQ_CONS (R33). -/
  seqCons : ConsSeq
  /-- SEQ_RDTX (R33). -/
  seqRdTx : RdTxSeq
  /-- SEQ_RDIRQ (R33). -/
  seqRdIrq : RdIrqSeq
  /-- SEQ_POLL (R33). -/
  seqPoll : PollSeq
  /-- `res` of the last radio step (44_radio_handshake.md R247; log entry 23). -/
  res : StepRes
  /-- SPI_LOG: bytes out and bytes in of every transaction (20_memory.md R99). -/
  spiLog : List (List Byte × List Byte)
  deriving DecidableEq, Repr

/-- The state of GSE-LINK. -/
structure State where
  /-- The open parameters; no step writes them (00_scope.md R10; log entry 3). -/
  cfg : Config
  /-- CRC (R31). -/
  crc : Word16
  /-- FB_CRC (R31); no operation leaves anything in it (20_memory.md R87; log entry 16). -/
  fbCrc : Word16
  /-- The UART controller instances (R30). -/
  uarts : List Uart
  /-- The radio controller (R30). -/
  radio : Radio
  /-- The host operations in progress, by ticket. -/
  ops : List (Nat × HostOp)
  /-- The responses given, oldest first, by ticket. -/
  responses : List (Nat × Response)
  /-- The model's own: the ticket of the next operation issued (log entry 20). -/
  nextTicket : Nat
  /-- The model's own: what happens next (log entry 1). -/
  script : List Stimulus
  /-- The model's own: bytes the radio chip will answer with (log entry 6). -/
  spiIn : List Byte
  /-- The model's own: for the coming ready-polls, how many status reads beyond the first are made before T_POLL has elapsed (log entry 7). -/
  pollLimits : List Nat
  /-- The model's own: the counter of the free values (log entry 6). -/
  draws : Nat
  deriving DecidableEq, Repr

/-! ### Why a step stops -/

/-- The faults. There is none: no rule of the spec stops the machine (60_exceptions.md R320: "the agents of the block keep running"); every error is a response. -/
inductive Fault where
  deriving DecidableEq, Repr

/-- The refusals: runs to which the spec gives no meaning (93_implementation_defined.md, treatment `refuse`). -/
inductive Refusal where
  /-- Raised by `exec` for an instruction that has no meaning yet. Safe: nothing is claimed about it. -/
  | notModelled (mnemonic : String)
  /-- Raised by `UF.SHUTDOWN` while a `UF.SEND` is in progress on the same instance (93 U1, 20_memory.md R102). Safe: the spec gives such a run no result. -/
  | shutdownDuringSend
  /-- Raised by `UR.SHUTDOWN` whose join times out while a batch is in progress (93 U1, 43_uart_raw.md R227). Safe, as above. -/
  | joinTimeoutDuringBatch
  /-- Raised by a second `UF.SHUTDOWN` or `UR.SHUTDOWN` that overlaps the first on one instance (93 U2, 20_memory.md R102). Safe, as above. -/
  | overlappingShutdown
  /-- Raised by `UR.WRITE`, `UR.READ`, UR_TX and UR_RX on a raw controller whose DATABITS is not 8 (30_encoding.md R116, 93 U3). Safe, as above. -/
  | dataBitsUnmapped
  deriving DecidableEq, Repr

/-! ### Reset (R70; 70_reset_and_hazards.md R350) -/

/-- A UART controller after reset. The registers that R70 leaves unspecified have the values of log entry 5. -/
def Uart.reset : Uart where
  lc := .unconstructed
  mode := .framed
  baud := 0
  databits := 0
  stopbits := 0
  parity := .n
  uartOpen := false
  dir := .released
  run := false
  shutReq := false
  sendLock := .free
  txLock := .free
  rxLock := .free
  rxBuf := []
  rxq := []
  seqScan := .hunt
  fsN := 0
  fsCnt := 0
  fsCrc := crcInitial
  fsLo := 0
  fsPay := []
  seqUfRx := .stopped
  diag := []
  txPend := []
  rxAcc := []
  txBatch := []
  seqUrTx := .stopped
  seqUrRx := .stopped
  lineOut := []
  lineIn := []
  rxAvail := []
  readErr := false

/-- The radio controller after reset. The registers that R70 leaves unspecified have the values of log entry 5. -/
def Radio.reset : Radio where
  lc := .unconstructed
  alloc := false
  shutdown := false
  irqEn := false
  irqPend := 0
  irqLine := true
  sentAny := false
  channel := 0
  tPoll := 0
  tShutdown := 0
  tResetHold := 0
  tResetSettle := 0
  props := List.replicate nProps ⟨0, 0, 0, []⟩
  txq := []
  rxList := []
  txBatchR := []
  txIdx := 0
  spiOpen := false
  rst := .released
  spiLock := .free
  txqLock := .free
  rxlLock := .free
  seqCons := .s0Guard
  seqRdTx := .stopped
  seqRdIrq := .idle
  seqPoll := .idle
  res := .none
  spiLog := []

/-- The machine right after reset: a number of UART controller instances of which nothing is known (10_state.md R30; log entry 4), the parameters unknown (log entry 3), nothing to happen (log entry 2). -/
def State.reset : State where
  cfg := Config.board
  crc := crcInitial
  fbCrc := crcInitial
  uarts := List.replicate Config.uartCount Uart.reset
  radio := Radio.reset
  ops := []
  responses := []
  nextTicket := 0
  script := []
  spiIn := []
  pollLimits := []
  draws := 0

end Sys2Proof.Machine
end

