-- ==== Sys2Proof/Machine/Flags.lean ====
section
/-! DEFINITION. The flags of 10_state.md R35, the wake conditions of R37, the lifecycle tests of 60_exceptions.md R315 and R326, and the electrical level of each line that DIR and RST stand for (R41, R60). -/

namespace Sys2Proof.Machine

/-- RUN set by `UF.CONSTRUCT` and cleared by `UF.SHUTDOWN` (R35). -/
def Uart.setRun (b : Bool) (u : Uart) : Uart := { u with run := b }

/-- SHUTREQ set by `UR.SHUTDOWN` and cleared by `UR.CONSTRUCT` (R35, 43_uart_raw.md R220). -/
def Uart.setShutReq (b : Bool) (u : Uart) : Uart := { u with shutReq := b }

/-- SHUTDOWN set by `RD.SHUTDOWN` and cleared by `RD.CONSTRUCT` step S0 (R35). -/
def Radio.setShutdown (b : Bool) (r : Radio) : Radio := { r with shutdown := b }

/-- SENT_ANY (R35). -/
def Radio.setSentAny (b : Bool) (r : Radio) : Radio := { r with sentAny := b }

/-- "LC = RUNNING and MODE is this family's" (60_exceptions.md R315, R326). -/
def Uart.ready (m : Mode) (u : Uart) : Bool := u.lc == .running && u.mode == m

/-- The code of a UART controller's LC in an E_STATE response (60_exceptions.md R311). -/
def UartLc.asLc : UartLc → RadioLc
  | .unconstructed => .unconstructed
  | .running => .running
  | .shut => .shut

/-- The wake condition of UR_TX (R37): data pending or shutdown requested. -/
def Uart.txWake (u : Uart) : Bool := !u.txPend.isEmpty || u.shutReq

/-- The wake condition of RD_TX (R37): packets queued or SHUTDOWN. -/
def Radio.txWake (r : Radio) : Bool := !r.txq.isEmpty || r.shutdown

/-- In FAILED "no agent of the radio has a step" (44_radio_handshake.md R270). -/
def Radio.agentsLive (r : Radio) : Bool := r.lc != .failed

/-- A construction has opened the port, which is its own until it starts the agents (44_radio_handshake.md R263, R272). -/
def Radio.portTaken (r : Radio) : Bool := r.lc == .constructing && r.spiOpen

/-- A radio step of RD_TX is not enabled: the construction that has opened the port starts the agent in S9 (44_radio_handshake.md R269, R272), and power-up comes before every other command (R250); log entry 44, DEDUCED. -/
def Radio.txBarred (r : Radio) : Bool := r.portTaken

/-- A radio step of RD_IRQ is not enabled: the construction that has opened the port lets the agent run from S7 on, which sets IRQ_EN (44_radio_handshake.md R267, 60_exceptions.md R324), and power-up comes before every other command (R250); log entry 44, DEDUCED. -/
def Radio.irqBarred (r : Radio) : Bool := r.portTaken && !r.irqEn

/-- A mutex that `lock` can take (00_scope.md R14). -/
def Mutex.isFree (m : Mutex) : Bool := m == .free

/-- UR_TX has a batch in progress: it is between its drain and its return to WAIT (43_uart_raw.md R223). -/
def Uart.batchInProgress (u : Uart) : Bool :=
  u.seqUrTx == .drained || u.seqUrTx == .writing || u.seqUrTx == .txOff

/-- The level of the driver-enable line, when driven (R41, 00_scope.md R10; log entry 35). -/
def deLevel (c : Config) : Dir → Option Bool
  | .tx => some c.deTxLevel
  | .rx => some (!c.deTxLevel)
  | .released => none

/-- The level of the receiver-enable line, when driven (R41, 00_scope.md R10; log entry 35). -/
def reLevel (c : Config) : Dir → Option Bool
  | .tx => some c.reTxLevel
  | .rx => some (!c.reTxLevel)
  | .released => none

/-- The level of the reset line, when driven (R60, 00_scope.md R10). -/
def rstLevel (c : Config) : RstLine → Option Bool
  | .asserted => some c.rstAssertLevel
  | .deasserted => some (!c.rstAssertLevel)
  | .released => none

end Sys2Proof.Machine
end

