-- ==== Sys2Proof/Machine/Operands.lean ====
section
/-! DEFINITION. The operand checks of the operations, complete (60_exceptions.md R313, R314), and the numbers computed from operands. -/

namespace Sys2Proof.Machine

/-- The parity letters N, E, O, M, S in ASCII; no other is accepted (43_uart_raw.md R220). -/
def parityOf (letter : Byte) : Option Parity :=
  if letter = 0x4E then some .n
  else if letter = 0x45 then some .e
  else if letter = 0x4F then some .o
  else if letter = 0x4D then some .m
  else if letter = 0x53 then some .s
  else none

/-- The checked configuration of a raw controller. -/
structure RawConfig where
  baud : Nat
  databits : Nat
  stopbits : Nat
  parity : Parity
  deriving DecidableEq, Repr

/-- The checks of `UF.CONSTRUCT` (42_uart_framed.md R190): any positive rate. -/
def checkFramedBaud (baud : Word32) : Except ConfigField Nat :=
  if baud.toNat < 1 then .error .baud else .ok baud.toNat

/-- The checks of `UR.CONSTRUCT` in their order; the first that fails is named (43_uart_raw.md R220). -/
def checkRawConfig (baud : Word32) (databits stopbits parity : Byte) : Except ConfigField RawConfig :=
  if baud.toNat < 1200 || 2000000 < baud.toNat then .error .baud
  else if databits.toNat < 5 || 9 < databits.toNat then .error .databits
  else if stopbits.toNat < 1 || 2 < stopbits.toNat then .error .stopbits
  else
    match parityOf parity with
    | some p => .ok ⟨baud.toNat, databits.toNat, stopbits.toNat, p⟩
    | none => .error .parity

/-- The checks of construction step S1: the channel, then the property count (44_radio_handshake.md R271, R262). -/
def checkRadioConfig (channel : Word16) (props : List PropRecord) : Except ConfigField Byte :=
  if 255 < channel.toNat then .error .channel
  else if props.length ≠ nProps then .error (.properties props.length)
  else .ok (channel.setWidth 8)

/-- A framed payload of legal size (R314): at most 255 bytes. -/
def payloadFits (p : List Byte) : Bool := p.length ≤ payloadMax

/-- A radio packet of legal size (R314): 1 to 64 bytes. -/
def packetFits (p : List Byte) : Bool := pktMin ≤ p.length && p.length ≤ pktMax

/-- The index and length of the first packet of illegal size, counting from `i` (45_radio_txrx.md R280). -/
def firstBadPacket (i : Nat) : List (List Byte) → Option (Nat × Nat)
  | [] => none
  | p :: ps => if packetFits p then firstBadPacket (i + 1) ps else some (i, p.length)

/-- T_HOLD(n) = n * 10 / BAUD seconds (70_reset_and_hazards.md R352). No step depends on it. -/
def tHold (n baud : Nat) : Rat := (n * 10 : Nat) / (baud : Nat)

end Sys2Proof.Machine
end

