-- ==== Sys2Proof/Machine/Ops.lean ====
section
/-! DEFINITION. The operations every meaning is built from: updates of the state, accepting a host operation and answering it (an error response is this block's exception, 60_exceptions.md R320; an `OK` response ends the operation), the UART line (00_scope.md R15), the SPI port and the radio step (44_radio_handshake.md R241 to R247), and hardware reset. -/

namespace Sys2Proof.Machine

/-- What a meaning answers. -/
abbrev Out := Host.Outcome State Fault Refusal

/-! ### Parts of the state -/

/-- Writes UART controller instance `i`. -/
def State.setUart (i : Nat) (u : Uart) (s : State) : State := { s with uarts := s.uarts.set i u }

/-- Writes the radio controller. -/
def State.setRadio (r : Radio) (s : State) : State := { s with radio := r }

/-- Writes the CRC register. -/
def State.setCrc (c : Word16) (s : State) : State := { s with crc := c }

/-! ### Host operations: issue, wait, answer -/

/-- Counts an operation as issued; its ticket is the counter's value before. -/
def State.accept (s : State) : State := { s with nextTicket := s.nextTicket + 1 }

/-- Gives the response of the operation with ticket `t` (30_encoding.md R130). -/
def State.respond (t : Nat) (r : Response) (s : State) : State :=
  { s with responses := s.responses ++ [(t, r)] }

/-- Puts an operation in progress. -/
def State.addOp (t : Nat) (op : HostOp) (s : State) : State := { s with ops := s.ops ++ [(t, op)] }

/-- The operation in progress with ticket `t`. -/
def State.findOp (t : Nat) (s : State) : Option HostOp :=
  match s.ops.find? (fun e => e.1 == t) with
  | some e => some e.2
  | none => none

/-- Moves the operation with ticket `t` to another row. -/
def State.setOp (t : Nat) (op : HostOp) (s : State) : State :=
  { s with ops := s.ops.map (fun e => if e.1 = t then (t, op) else e) }

/-- The operation with ticket `t` is over. -/
def State.dropOp (t : Nat) (s : State) : State :=
  { s with ops := s.ops.filter (fun e => e.1 != t) }

/-- `raise E(info)` (00_scope.md R12): the error response of an operation as it is issued; nothing is saved, no mode changes, no control goes anywhere (60_exceptions.md R320, R321). -/
def State.raise (t : Nat) (e : Err) (s : State) : State := s.respond t (.error e)

/-- `result <- v`: the operation returns with status `OK` as it is issued. -/
def State.answer (t : Nat) (r : Result) (s : State) : State := s.respond t (.ok r)

/-- An operation in progress ends with an error response. -/
def State.abort (t : Nat) (e : Err) (s : State) : State := (s.dropOp t).raise t e

/-- An operation in progress returns with status `OK`. -/
def State.complete (t : Nat) (r : Result) (s : State) : State := (s.dropOp t).answer t r

/-- SEQ_SEND of the operation with ticket `t` (10_state.md R33): IDLE when no `UF.SEND` is in progress. -/
def State.seqSend (t : Nat) (s : State) : SendSeq :=
  match s.findOp t with
  | some (.send _ _ q) => q
  | _ => .idle

/-- An operation on UART controller `inst` (30_encoding.md R130): it is issued, INST is checked (60_exceptions.md R318) and `k` gets the ticket, the instance number and the controller. -/
def onUart (inst : Byte) (s : State) (k : Nat → Nat → Uart → State → Out) : Out :=
  match s.uarts[inst.toNat]? with
  | some u => k s.nextTicket inst.toNat u s.accept
  | none => .next (s.accept.raise s.nextTicket .illegal)

/-- The lifecycle and mode test of the `UF.*` and `UR.*` operations (60_exceptions.md R315, R326): E_STATE with the LC found, or `k`. -/
def whenReady (m : Mode) (t : Nat) (u : Uart) (s : State) (k : Out) : Out :=
  if u.ready m then k else .next (s.raise t (.state u.lc.asLc))

/-- The lifecycle test of `RD.TRANSMIT`, `RD.RECEIVE` and `RD.SHUTDOWN` (60_exceptions.md R315). -/
def whenRadioRunning (t : Nat) (s : State) (k : Out) : Out :=
  if s.radio.lc = .running then k else .next (s.raise t (.state s.radio.lc))

/-! ### The serial line (00_scope.md R15, 42_uart_framed.md R195) -/

/-- The line delivers bytes: a closed UART listens to nothing (10_state.md R39), and while DIR = TX they are lost unless ECHO_IN_TX. -/
def Uart.deliver (c : Config) (bs : List Byte) (u : Uart) : Uart :=
  if u.uartOpen && (u.dir != .tx || c.echoInTx) then
    { u with rxAvail := u.rxAvail ++ bs, lineIn := u.lineIn ++ bs }
  else u

/-- `UartTx(b)`: the byte goes on the line, tagged with DIR (10_state.md R40); with ECHO_IN_TX the receiver hears it (42_uart_framed.md R195). A closed UART transmits nothing (R39). -/
def Uart.tx (c : Config) (u : Uart) (b : Byte) : Uart :=
  if u.uartOpen then
    let u := { u with lineOut := u.lineOut ++ [(b, u.dir)] }
    if u.dir = .tx then u.deliver c [b] else u
  else u

/-- `UartTx` of each byte in order. -/
def Uart.txAll (c : Config) (bs : List Byte) (u : Uart) : Uart := bs.foldl (Uart.tx c) u

/-! ### The environment's draws (00_scope.md R16) -/

/-- One byte of the radio chip's answer: the next one decided, else a free value. -/
def State.drawByte (s : State) : Byte × State :=
  match s.spiIn with
  | b :: rest => (b, { s with spiIn := rest })
  | [] => (Config.radioByte s.draws, { s with draws := s.draws + 1 })

/-- `n` bytes of the radio chip's answer. -/
def State.drawBytes : Nat → State → List Byte × State
  | 0, s => ([], s)
  | n + 1, s => (s.drawByte.1 :: (s.drawByte.2.drawBytes n).1, (s.drawByte.2.drawBytes n).2)

/-- When T_POLL elapses in the coming ready-poll, counted in status reads beyond the first: the next one decided, else a free value. -/
def State.drawLimit (s : State) : Nat × State :=
  match s.pollLimits with
  | n :: rest => (n, { s with pollLimits := rest })
  | [] => (Config.pollLimit s.draws, { s with draws := s.draws + 1 })

/-- A value of which the rules say nothing, numbered by the counter. -/
def State.drawIndex (s : State) : Nat × State := (s.draws, { s with draws := s.draws + 1 })

/-! ### The SPI port and the radio step -/

/-- `SpiXfer(out, n)`: one indivisible transaction, appended to SPI_LOG (44_radio_handshake.md R241). -/
def spiXfer (out : List Byte) (n : Nat) (s : State) : List Byte × State :=
  let (r, s) := s.drawBytes n
  (r, s.setRadio { s.radio with spiLog := s.radio.spiLog ++ [(out, r)] })

/-- Writes SEQ_POLL. -/
def State.setPoll (p : PollSeq) (s : State) : State := s.setRadio { s.radio with seqPoll := p }

/-- One status read (R251): ready exactly when the first byte is CTS_READY; the response bytes of a read that is not ready are discarded (30_encoding.md R121). -/
def readStatus (k : Nat) (s : State) : Option (List Byte) × State :=
  let (r, s) := spiXfer (cmdReadStatus s.cfg) (1 + k) s
  match r with
  | r0 :: resp => if r0 = s.cfg.ctsReady then (some resp, s.setPoll .ready) else (none, s.setPoll .polling)
  | [] => (none, s.setPoll .polling)

/-- The loop of the ready-poll: READY at the first ready status read, TIMEOUT after the last one that time allows (R246). -/
def pollLoop (k : Nat) : Nat → State → Option (List Byte) × State
  | 0, s =>
    match readStatus k s with
    | (some r, s) => (some r, s)
    | (none, s) => (none, s.setPoll .timeout)
  | n + 1, s =>
    match readStatus k s with
    | (some r, s) => (some r, s)
    | (none, s) => pollLoop k n s

/-- `POLL(k)` (R246). -/
def poll (k : Nat) (s : State) : Option (List Byte) × State :=
  let (limit, s) := (s.setPoll .polling).drawLimit
  pollLoop k limit s

/-- The result `res` and SEQ_POLL at the end of a radio step (R246, R247). -/
def State.endStep (res : StepRes) (s : State) : State :=
  s.setRadio { s.radio with seqPoll := .idle, res := res }

/-- The radio step `STEP(cmd, k)` (R247): SPILOCK is taken, the command, its ready-poll and its response follow, and SPILOCK is freed, within one row; with SPILOCK not FREE the row is not enabled, with SPI_OPEN = 0 it is CLOSED. No hardware reset falls between the command and its status reads (DESIGN CHOICE, log entry 48). -/
def radioStep (cmd : List Byte) (k : Nat) (s : State) : StepRes × State :=
  if !s.radio.spiLock.isFree then (.held, s)
  else if !s.radio.spiOpen then (.closed, s.endStep .closed)
  else
    match poll k (spiXfer cmd 0 s).2 with
    | (some resp, s) => (.ready resp, s.endStep (.ready resp))
    | (none, s) => (.timeout, s.endStep .timeout)

/-! ### Hardware reset (70_reset_and_hazards.md R350, R351) -/

/-- A UART controller after reset; the histories of its line remain (log entry 26). -/
def Uart.hardReset (u : Uart) : Uart := { Uart.reset with lineOut := u.lineOut, lineIn := u.lineIn }

/-- The radio controller after reset; the history of its SPI port and the level of its IRQ input remain (log entry 26). -/
def Radio.hardReset (r : Radio) : Radio := { Radio.reset with spiLog := r.spiLog, irqLine := r.irqLine }

/-- Every state element at its reset value; operations in flight get no response (R351). What is not the block's remains: parameters, histories, script and the environment's answers (log entry 26). -/
def State.hardReset (s : State) : State :=
  { s with
    crc := crcInitial
    fbCrc := crcInitial
    uarts := s.uarts.map Uart.hardReset
    radio := s.radio.hardReset
    ops := [] }

end Sys2Proof.Machine
end

