-- ==== Sys2Proof/Machine/RadioCommands.lean ====
section
/-! DEFINITION. The ten SPI commands (44_radio_handshake.md R250 to R259): each but the status read is one radio step. The agents and the construction issue them through the functions `rc…`; the operation of the same name is that step standing alone. -/

namespace Sys2Proof.Machine

/-- `RC.POWER_UP` (R250). -/
def rcPowerUp (s : State) : StepRes × State := radioStep (cmdPowerUp s.cfg) 0 s

/-- `RC.GPIO_CFG` (R252). -/
def rcGpioCfg (s : State) : StepRes × State := radioStep (cmdGpioCfg s.cfg) 0 s

/-- `RC.SET_PROPERTY p` (R253). -/
def rcSetProperty (p : PropRecord) (s : State) : StepRes × State := radioStep (cmdSetProperty s.cfg p) 0 s

/-- `RC.CLEAR_TX_FIFO` (R254). -/
def rcClearTxFifo (s : State) : StepRes × State := radioStep (cmdClearTxFifo s.cfg) 0 s

/-- `RC.WRITE_TX_FIFO pkt` (R255). -/
def rcWriteTxFifo (pkt : List Byte) (s : State) : StepRes × State := radioStep (cmdWriteTxFifo s.cfg pkt) 0 s

/-- `RC.START_TX ch, n` (R256). -/
def rcStartTx (ch : Byte) (n : Nat) (s : State) : StepRes × State := radioStep (cmdStartTx s.cfg ch n) 0 s

/-- `RC.START_RX ch` (R257). -/
def rcStartRx (ch : Byte) (s : State) : StepRes × State := radioStep (cmdStartRx s.cfg ch) 0 s

/-- `RC.RX_LEN` (R258): the response is two bytes. -/
def rcRxLen (s : State) : StepRes × State := radioStep (cmdRxLen s.cfg) 2 s

/-- `RC.READ_RX_FIFO n` (R259): the response is `n` bytes. -/
def rcReadRxFifo (n : Nat) (s : State) : StepRes × State := radioStep (cmdReadRxFifo s.cfg) n s

/-- `RC.READ_STATUS` (R251): one transaction, where one may be issued (R241); the response bytes are kept when it is ready, and SEQ_POLL shows whether it was. -/
def rcReadStatus (k : Nat) (s : State) : State :=
  if !s.radio.spiLock.isFree then s
  else if !s.radio.spiOpen then s.setRadio { s.radio with res := .closed }
  else
    match readStatus k s with
    | (some resp, s) => s.setRadio { s.radio with res := .ready resp }
    | (none, s) => s

/-- `RC.POWER_UP` (R250). -/
def execRcPowerUp (s : State) : Out := .next (rcPowerUp s).2

/-- `RC.READ_STATUS` (R251). -/
def execRcReadStatus (k : Nat) (s : State) : Out := .next (rcReadStatus k s)

/-- `RC.GPIO_CFG` (R252). -/
def execRcGpioCfg (s : State) : Out := .next (rcGpioCfg s).2

/-- `RC.SET_PROPERTY p` (R253). -/
def execRcSetProperty (p : PropRecord) (s : State) : Out := .next (rcSetProperty p s).2

/-- `RC.CLEAR_TX_FIFO` (R254). -/
def execRcClearTxFifo (s : State) : Out := .next (rcClearTxFifo s).2

/-- `RC.WRITE_TX_FIFO pkt` (R255). -/
def execRcWriteTxFifo (pkt : List Byte) (s : State) : Out := .next (rcWriteTxFifo pkt s).2

/-- `RC.START_TX ch, n` (R256). -/
def execRcStartTx (ch : Byte) (n : Nat) (s : State) : Out := .next (rcStartTx ch n s).2

/-- `RC.START_RX ch` (R257). -/
def execRcStartRx (ch : Byte) (s : State) : Out := .next (rcStartRx ch s).2

/-- `RC.RX_LEN` (R258). -/
def execRcRxLen (s : State) : Out := .next (rcRxLen s).2

/-- `RC.READ_RX_FIFO n` (R259). -/
def execRcReadRxFifo (n : Nat) (s : State) : Out := .next (rcReadRxFifo n s).2

end Sys2Proof.Machine
end

