-- ==== Sys2Proof/Machine/RadioConstruct.lean ====
section
/-! DEFINITION. `RD.CONSTRUCT` (44_radio_handshake.md R260 to R272): the guard when it is issued, then the construction sequencer SEQ_CONS, one row or radio step at a time. -/

namespace Sys2Proof.Machine

/-- Writes SEQ_CONS. -/
def State.setCons (q : ConsSeq) (s : State) : State := s.setRadio { s.radio with seqCons := q }

/-- S0: the guard is taken, and a new controller starts with empty queues (R261). -/
def Radio.takeGuard (r : Radio) : Radio :=
  { r.setShutdown false with
    alloc := true, lc := .constructing
    txq := [], rxList := [], txBatchR := [], irqPend := 0
    seqCons := .s1Parse }

/-- `RD.CONSTRUCT channel, props`, step S0: the test and the set of ALLOC are one action (R261, 20_memory.md R95). -/
def execRdConstruct (channel : Word16) (props : List PropRecord) (s : State) : Out :=
  let t := s.nextTicket
  .next (
    if s.radio.alloc then s.accept.raise t (.state s.radio.lc)
    else (s.accept.setRadio s.radio.takeGuard).addOp t (.rdConstruct channel props))

/-- Failure in S1 undoes S0 (R264). -/
def Radio.undoGuard (r : Radio) : Radio :=
  { r with alloc := false, lc := .unconstructed, seqCons := .s0Guard }

/-- S1 done: the configuration registers and the property table are written (R61, R262, R271). -/
def Radio.configure (c : Config) (channel : Byte) (props : List PropRecord) (r : Radio) : Radio :=
  { r with
    channel := channel, props := props
    tPoll := c.tPoll, tShutdown := c.tShutdown, tResetHold := c.tResetHold, tResetSettle := c.tResetSettle
    seqCons := .s2Reset .assert }

/-- The reset line as one of its three states. -/
def rstOfCode : Fin 3 → RstLine
  | 0 => .asserted
  | 1 => .deasserted
  | 2 => .released

/-- Fatal failure (R270): RST and SPI_OPEN are unspecified from here on, so each takes a free value (93 U8). -/
def State.consFail (t : Nat) (st : HandshakeStep) (s : State) : State :=
  let (n, s) := s.drawIndex
  (s.setRadio { s.radio with
    irqEn := false, lc := .failed, seqCons := .failed
    rst := rstOfCode (Config.failedRst n), spiOpen := Config.failedSpiOpen n }).abort t (.handshake st)

/-- A radio step of the construction ends: READY goes on, held waits, anything else is fatal ("any step failing is fatal", R260, R270). -/
def consAfter (t : Nat) (st : HandshakeStep) (next : ConsSeq) (before : State) (r : StepRes × State) : State :=
  match r with
  | (.ready _, s) => s.setCons next
  | (.held, _) => before
  | (_, s) => s.consFail t st

/-- The rows of SEQ_CONS after S0 (R260). -/
def consStep (t : Nat) (channel : Word16) (props : List PropRecord) (s : State) : State :=
  match s.radio.seqCons with
  | .s0Guard | .done | .failed => s
  | .s1Parse =>
    match checkRadioConfig channel props with
    | .ok ch => s.setRadio (s.radio.configure s.cfg ch props)
    | .error f => (s.setRadio s.radio.undoGuard).abort t (.config f)
  | .s2Reset .assert =>
    s.setRadio { s.radio with spiOpen := true, rst := .asserted, seqCons := .s2Reset .hold }
  | .s2Reset .hold => s.setCons (.s2Reset .release)
  | .s2Reset .release => s.setRadio { s.radio with rst := .deasserted, seqCons := .s2Reset .settle }
  | .s2Reset .settle => s.setCons .s3PowerUp
  | .s3PowerUp => consAfter t .powerUp .s4Gpio s (rcPowerUp s)
  | .s4Gpio => consAfter t .gpio (.s5Prop 0) s (rcGpioCfg s)
  | .s5Prop i =>
    match s.radio.props[i]? with
    | some p => consAfter t (.prop i) (if i + 1 < nProps then .s5Prop (i + 1) else .s6Int 0) s (rcSetProperty p s)
    | none => s.setCons (.s6Int 0)
  | .s6Int i =>
    match s.cfg.intOverrides[i]? with
    | some q => consAfter t .int (if i + 1 < s.cfg.intOverrides.length then .s6Int (i + 1) else .s7Irq) s (rcSetProperty q s)
    | none => s.setCons .s7Irq
  | .s7Irq => s.setRadio { s.radio with irqPend := 0, irqEn := true, seqCons := .s8Rx }
  | .s8Rx => consAfter t .rx .s9Start s (rcStartRx s.radio.channel s)
  | .s9Start =>
    (s.setRadio { s.radio with seqRdTx := .wait, lc := .running, seqCons := .done }).complete t .none

end Sys2Proof.Machine
end

