-- ==== Sys2Proof/Machine/RadioTraffic.lean ====
section
/-! DEFINITION. The radio controller at run time (45_radio_txrx.md): `RD.TRANSMIT`, `RD.RECEIVE`, `RD.SHUTDOWN`, the agents RD_TX and RD_IRQ, and the interrupt's edge detector. -/

namespace Sys2Proof.Machine

/-! ### Transmit (R280) -/

/-- The append of the whole list under TXQLOCK, one indivisible action (R280); `none` while TXQLOCK is not FREE. -/
def appendPackets (ps : List (List Byte)) (s : State) : Option State :=
  if s.radio.txqLock.isFree then some (s.setRadio { s.radio with txq := s.radio.txq ++ ps }) else none

/-- `RD.TRANSMIT packets` (R280): every length is checked before any packet is queued. -/
def execRdTransmit (ps : List (List Byte)) (s : State) : Out :=
  let t := s.nextTicket
  whenRadioRunning t s.accept (.next (
    match firstBadPacket 0 ps with
    | some (i, n) => s.accept.raise t (.size i n)
    | none =>
      match appendPackets ps s.accept with
      | some s' => s'.answer t .none
      | none => s.accept.addOp t (.rdTransmit ps)))

/-- An `RD.TRANSMIT` that waits for TXQLOCK looks again. -/
def rdTransmitStep (t : Nat) (ps : List (List Byte)) (s : State) : State :=
  match appendPackets ps s with
  | some s' => s'.complete t .none
  | none => s

/-! ### RD_TX (R283) -/

/-- Writes SEQ_RDTX. -/
def State.setRdTx (q : RdTxSeq) (s : State) : State := s.setRadio { s.radio with seqRdTx := q }

/-- `NEXT(j)` (R283). -/
def State.nextPacket (j : Nat) (s : State) : State :=
  if j + 1 < s.radio.txBatchR.length then s.setRdTx (.batch (j + 1) .clear)
  else if s.radio.sentAny then s.setRdTx .rearm
  else s.setRadio { s.radio with seqRdTx := .wait, txBatchR := [] }

/-- The packet `TXBATCH_R[j]`; where a construction has cleared the batch under the agent, one of which nothing is known, and which no run puts on the port (log entry 9). -/
def State.batchPacket (j : Nat) (s : State) : List Byte × State :=
  match s.radio.txBatchR[j]? with
  | some p => (p, s)
  | none => (Config.stalePacket s.draws, { s with draws := s.draws + 1 })

/-- The end of a radio step of packet `j`: `ok` on READY, the next packet on TIMEOUT, STOPPED on CLOSED; held, the row is not enabled. -/
def pktAfter (j : Nat) (ok : State → State) (before : State) (r : StepRes × State) : State :=
  match r with
  | (.ready _, s) => ok s
  | (.timeout, s) => s.nextPacket j
  | (.closed, s) => s.setRdTx .stopped
  | (_, _) => before

/-- The end of the re-arm (R283, R285). -/
def rearmAfter (before : State) (r : StepRes × State) : State :=
  match r with
  | (.ready _, s) => s.setRadio { s.radio with txBatchR := [], seqRdTx := .wait }
  | (.timeout, s) => s.setRadio { s.radio with txBatchR := [], seqRdTx := .wait }
  | (.closed, s) => s.setRadio { s.radio with txBatchR := [], seqRdTx := .stopped }
  | (_, _) => before

/-- The rows of RD_TX (R283); `giveUp` takes the row for `SHUTDOWN = 1` where it is enabled (R293). A radio row of an agent that a shutdown left over ends CLOSED while the port is closed, and is not enabled while a construction has the port (log entry 44, DEDUCED). -/
def rdTxRow (giveUp : Bool) (s : State) : State :=
  match s.radio.seqRdTx with
  | .stopped => s
  | .wait =>
    if s.radio.shutdown then s.setRdTx .stopped
    else if !s.radio.txq.isEmpty && s.radio.txqLock.isFree then
      s.setRadio { s.radio.setSentAny false with
        txBatchR := s.radio.txq, txq := [], txIdx := 0, seqRdTx := .batch 0 .clear }
    else s
  | .batch j st =>
    if giveUp && s.radio.shutdown then s.setRdTx .stopped
    else if s.radio.txBarred then s
    else
      match st with
      | .clear =>
        pktAfter j (fun s => s.setRdTx (.batch j .write)) s
          (rcClearTxFifo (s.setRadio { s.radio with txIdx := j }))
      | .write =>
        pktAfter j (fun s => s.setRdTx (.batch j .start)) s
          (rcWriteTxFifo (s.batchPacket j).1 (s.batchPacket j).2)
      | .start =>
        pktAfter j (fun s => (s.setRadio (s.radio.setSentAny true)).nextPacket j) s
          (rcStartTx s.radio.channel (s.batchPacket j).1.length (s.batchPacket j).2)
  | .rearm =>
    if giveUp && s.radio.shutdown then s.setRdTx .stopped
    else if s.radio.txBarred then s
    else rearmAfter s (rcStartRx s.radio.channel s)

/-- `RD_TX.STEP` (R283); in FAILED the agent has no step (44_radio_handshake.md R270). -/
def execRdTxStep (giveUp : Bool) (s : State) : Out :=
  .next (if s.radio.agentsLive then rdTxRow giveUp s else s)

/-! ### The interrupt and RD_IRQ (R286, R287) -/

/-- The edge detector: a transition of IRQ from 1 to 0 while IRQ_EN = 1 is counted (R286, 10_state.md R67). -/
def Radio.irqInput (level : Bool) (r : Radio) : Radio :=
  { r with
    irqLine := level
    irqPend := if r.irqEn && r.irqLine && !level then r.irqPend + 1 else r.irqPend }

/-- Writes SEQ_RDIRQ. -/
def State.setRdIrq (q : RdIrqSeq) (s : State) : State := s.setRadio { s.radio with seqRdIrq := q }

/-- The length response reaches the handler (R287, row LEN): `n <- 256 * hi + lo`, unchecked (R289). -/
def applyRxLen (hi lo : Byte) (s : State) : State :=
  match s.radio.seqRdIrq with
  | .len => s.setRdIrq (.data (rxLenValue hi lo))
  | _ => s

/-- The end of row LEN (R287). -/
def lenAfter (before : State) (r : StepRes × State) : State :=
  match r with
  | (.ready [hi, lo], s) => applyRxLen hi lo s
  | (.held, _) => before
  | (_, s) => s.setRdIrq .idle

/-- The end of row DATA (R287). -/
def dataAfter (before : State) (r : StepRes × State) : State :=
  match r with
  | (.ready d, s) => s.setRdIrq (.store d)
  | (.held, _) => before
  | (_, s) => s.setRdIrq .idle

/-- The rows of RD_IRQ (R287). A handler that a completed `RD.SHUTDOWN` left in LEN, DATA or STORE goes on by these rows, since no rule sets SEQ_RDIRQ back (DESIGN CHOICE, log entry 46): LEN and DATA end CLOSED while the port is closed, and are not enabled while a construction has the port and has not reached S7 (log entry 44, DEDUCED). No row reads SHUTDOWN, although 10_state.md R35 names RD_IRQ among its readers (DESIGN CHOICE, log entry 47). -/
def rdIrqRow (s : State) : State :=
  match s.radio.seqRdIrq with
  | .idle =>
    if s.radio.irqEn && 0 < s.radio.irqPend then
      s.setRadio { s.radio with irqPend := s.radio.irqPend - 1, seqRdIrq := .len }
    else s
  | .len => if s.radio.irqBarred then s else lenAfter s (rcRxLen s)
  | .data n => if s.radio.irqBarred then s else dataAfter s (rcReadRxFifo n s)
  | .store d =>
    if s.radio.rxlLock.isFree then
      s.setRadio { s.radio with rxList := s.radio.rxList ++ [d], seqRdIrq := .idle }
    else s

/-- `RD_IRQ.STEP` (R287); in FAILED the agent has no step (44_radio_handshake.md R270). -/
def execRdIrqStep (s : State) : Out := .next (if s.radio.agentsLive then rdIrqRow s else s)

/-! ### Receive (R290) -/

/-- The drain under RXLLOCK, one indivisible action (R290); `none` while RXLLOCK is not FREE. -/
def drainPackets (s : State) : Option (List (List Byte) × State) :=
  if s.radio.rxlLock.isFree then some (s.radio.rxList, s.setRadio { s.radio with rxList := [] }) else none

/-- `RD.RECEIVE` (R290). -/
def execRdReceive (s : State) : Out :=
  let t := s.nextTicket
  whenRadioRunning t s.accept (.next (
    match drainPackets s.accept with
    | some (l, s') => s'.answer t (.list l)
    | none => s.accept.addOp t .rdReceive))

/-- An `RD.RECEIVE` that waits for RXLLOCK looks again. -/
def rdReceiveStep (t : Nat) (s : State) : State :=
  match drainPackets s with
  | some (l, s') => s'.complete t (.list l)
  | none => s

/-! ### Shutdown (R291) -/

/-- `RD.SHUTDOWN`, step 1 (R291). -/
def execRdShutdown (s : State) : Out :=
  let t := s.nextTicket
  whenRadioRunning t s.accept
    (.next ((s.accept.setRadio { s.radio with lc := .shut }).addOp t (.rdShutdown .drain)))

/-- Steps 2 to 6 of `RD.SHUTDOWN` (R291). -/
def rdShutdownStep (t : Nat) (st : RdShut) (timeout : Bool) (s : State) : State :=
  match st with
  | .drain => if s.radio.txq.isEmpty || timeout then s.setOp t (.rdShutdown .flag) else s
  | .flag => (s.setRadio (s.radio.setShutdown true)).setOp t (.rdShutdown .lock)
  | .lock =>
    if s.radio.spiLock.isFree then
      (s.setRadio { s.radio with spiLock := .held (.host t) }).setOp t (.rdShutdown .close)
    else s
  | .close =>
    (s.setRadio { s.radio with
      irqEn := false, irqPend := 0, rst := .released, spiOpen := false, spiLock := .free }).setOp t (.rdShutdown .finish)
  | .finish => (s.setRadio { s.radio with txq := [], alloc := false }).complete t .none

end Sys2Proof.Machine
end

