-- ==== Sys2Proof/Machine/Crc.lean ====
section
/-! DEFINITION. The CRC unit (40_crc.md): one shift step, one byte, a sequence, the bit-serial form, and the four operations. -/

namespace Sys2Proof.Machine

/-- One shift step: right by one, and the polynomial XORed in when a 1 falls out (R152). -/
def crcShift (c : Word16) : Word16 :=
  if c.getLsbD 0 then (c >>> 1) ^^^ crcPoly else c >>> 1

/-- `n` shift steps. -/
def crcShifts : Nat → Word16 → Word16
  | 0, c => c
  | n + 1, c => crcShifts n (crcShift c)

/-- `update(c, b)`: the byte meets the low byte of the register, then eight shift steps (R152). -/
def crcUpdate (c : Word16) (b : Byte) : Word16 := crcShifts 8 (c ^^^ b.setWidth 16)

/-- The register after a sequence of bytes. -/
def crcUpdates (c : Word16) (bs : List Byte) : Word16 := bs.foldl crcUpdate c

/-- `CRC.SUM s`: a private accumulator from 0xFFFF, no final XOR (R154). -/
def crcSum (bs : List Byte) : Word16 := crcUpdates crcInitial bs

/-- One step of the bit-serial form: the data bit meets bit 0 (R155). -/
def crcBit (c : Word16) (d : Bool) : Word16 :=
  if c.getLsbD 0 ^^ d then (c >>> 1) ^^^ crcPoly else c >>> 1

/-- The bits of a byte, bit 0 first. -/
def byteBits (b : Byte) : List Bool := (List.range 8).map (fun i => b.getLsbD i)

/-- Eight bit-serial steps, fed `b[0]` to `b[7]` (R155). -/
def crcSerial (c : Word16) (b : Byte) : Word16 := (byteBits b).foldl crcBit c

/-- `CRC.INIT`: `CRC <- 0xFFFF` (R151). -/
def execCrcInit (s : State) : Out :=
  .next ((s.accept.setCrc crcInitial).answer s.nextTicket .none)

/-- `CRC.UPDATE b` (R152). -/
def execCrcUpdate (b : Byte) (s : State) : Out :=
  .next ((s.accept.setCrc (crcUpdate s.crc b)).answer s.nextTicket .none)

/-- `CRC.READ`: the register as it stands (R153). -/
def execCrcRead (s : State) : Out := .next (s.accept.answer s.nextTicket (.u16 s.crc))

/-- `CRC.SUM s`: neither reads nor writes CRC (R154). -/
def execCrcSum (bs : List Byte) (s : State) : Out :=
  .next (s.accept.answer s.nextTicket (.u16 (crcSum bs)))

end Sys2Proof.Machine
end

