-- ==== Sys2Proof/Machine/Framer.lean ====
section
/-! DEFINITION. The framer (41_framer.md): build, parse, the receive scanner in the source's buffer form (R179) and in the byte-serial hardware form (R181), and the operations `FRM.BUILD` and `FRM.PARSE`. -/

namespace Sys2Proof.Machine

/-- LEN of a payload (30_encoding.md R111). -/
def lenByte (p : List Byte) : Byte := BitVec.ofNat 8 p.length

/-- The body of a frame: the length byte and the payload, what the checksum covers (R171). -/
def frameBody (p : List Byte) : List Byte := lenByte p :: p

/-- The two checksum bytes, least significant first (30_encoding.md R112). -/
def crcTrailer (c : Word16) : List Byte := [loByte c, hiByte c]

/-- The span of a frame: body and checksum (90_conflicts.md C5). -/
def frameSpan (p : List Byte) : List Byte := frameBody p ++ crcTrailer (crcSum (frameBody p))

/-- The frame of a payload of at most 255 bytes (R171). -/
def buildFrame (p : List Byte) : List Byte := sof :: frameSpan p

/-- `FRM.PARSE s` as a function: the payload, or `none` for REJECT (R174, R175). -/
def parseSpan : List Byte → Option (List Byte)
  | [] => none
  | n :: rest =>
    if rest.length = n.toNat + 2 then
      match rest.drop n.toNat with
      | [lo, hi] => if crcSum (n :: rest.take n.toNat) = word16 hi lo then some (rest.take n.toNat) else none
      | _ => none
    else none

/-! ### The buffer form (R179) -/

/-- What a scan leaves: RXBUF and the payloads delivered, in order. -/
structure Scan where
  buf : List Byte
  out : List (List Byte)
  deriving DecidableEq, Repr

/-- The loop of `SCAN`; `fuel` bounds its rounds, of which each that continues removes at least four bytes. -/
def scanLoop : Nat → List Byte → Scan
  | 0, buf => ⟨buf, []⟩
  | fuel + 1, buf =>
    match buf.dropWhile (· ≠ sof) with
    | [] => ⟨[], []⟩
    | [m] => ⟨[m], []⟩
    | m :: n :: rest =>
      if rest.length < n.toNat + 2 then ⟨m :: n :: rest, []⟩
      else
        let next := scanLoop fuel (rest.drop (n.toNat + 2))
        match parseSpan (n :: rest.take (n.toNat + 2)) with
        | some p => ⟨next.buf, p :: next.out⟩
        | none => next

/-- `SCAN` on a buffer, to its stop (R179). -/
def scan (buf : List Byte) : Scan := scanLoop (buf.length + 1) buf

/-! ### The byte-serial form (R181) -/

/-- The scanner registers (10_state.md R32). -/
structure ScanRegs where
  seq : ScanSeq
  n : Byte
  cnt : BitVec 9
  crc : Word16
  lo : Byte
  pay : List Byte
  deriving DecidableEq, Repr

/-- The scanner consumes one byte: the registers after it, and a payload when one is delivered (the table of R181). -/
def scanByte (r : ScanRegs) (b : Byte) : ScanRegs × Option (List Byte) :=
  match r.seq with
  | .hunt => (if b = sof then { r with seq := .len } else r, none)
  | .len =>
    ({ r with n := b, cnt := 0, pay := [], crc := crcUpdate crcInitial b,
              seq := if b = 0 then .crcLo else .data }, none)
  | .data =>
    ({ r with pay := r.pay ++ [b], cnt := r.cnt + 1, crc := crcUpdate r.crc b,
              seq := if r.cnt + 1 = r.n.setWidth 9 then .crcLo else .data }, none)
  | .crcLo => ({ r with lo := b, seq := .crcHi }, none)
  | .crcHi => ({ r with seq := .hunt }, if r.crc = word16 b r.lo then some r.pay else none)

/-- The scanner consumes a sequence of bytes: the registers after it and the payloads delivered, in order. -/
def scanBytes (r : ScanRegs) : List Byte → ScanRegs × List (List Byte)
  | [] => (r, [])
  | b :: bs =>
    let (r, p) := scanByte r b
    let (r, ps) := scanBytes r bs
    (r, p.toList ++ ps)

/-- The scanner registers of a controller. -/
def Uart.scanRegs (u : Uart) : ScanRegs := ⟨u.seqScan, u.fsN, u.fsCnt, u.fsCrc, u.fsLo, u.fsPay⟩

/-- Writes the scanner registers of a controller. -/
def Uart.setScanRegs (r : ScanRegs) (u : Uart) : Uart :=
  { u with seqScan := r.seq, fsN := r.n, fsCnt := r.cnt, fsCrc := r.crc, fsLo := r.lo, fsPay := r.pay }

/-! ### The operations -/

/-- `FRM.BUILD p` (R171, R172): no state is written; a payload over 255 bytes is E_SIZE. -/
def execFrmBuild (p : List Byte) (s : State) : Out :=
  .next (if payloadFits p then s.accept.answer s.nextTicket (.bytes (buildFrame p))
    else s.accept.raise s.nextTicket (.size 0 p.length))

/-- `FRM.PARSE s` (R174): REJECT is a result, not an error. -/
def execFrmParse (bs : List Byte) (s : State) : Out :=
  .next (s.accept.answer s.nextTicket (.opt (parseSpan bs)))

end Sys2Proof.Machine
end

