-- ==== Sys2Proof/Machine/UartFramed.lean ====
section
/-! DEFINITION. The framed UART controller (42_uart_framed.md): construction, sending, receiving, reading, shutdown, and the agent UF_RX. -/

namespace Sys2Proof.Machine

/-! ### Construction (R190) -/

/-- A controller constructed in framed mode: 8 data bits, no parity, 1 stop bit, receive mode, the receiver running (R190). -/
def Uart.constructFramed (baud : Nat) (u : Uart) : Uart :=
  { u with
    mode := .framed, baud := baud, databits := 8, stopbits := 1, parity := .n
    uartOpen := true, dir := .rx
    rxBuf := [], rxq := [], seqScan := .hunt
    run := true, seqUfRx := .running
    lc := .running }

/-- `UF.CONSTRUCT baud` (R190). -/
def execUfConstruct (inst : Byte) (baud : Word32) (s : State) : Out :=
  onUart inst s fun t i u s =>
    if u.lc = .unconstructed then
      match checkFramedBaud baud with
      | .ok b => .next ((s.setUart i (u.constructFramed b)).answer t .none)
      | .error f => .next (s.raise t (.config f))
    else .next (s.raise t (.state u.lc.asLc))

/-! ### Sending (R191, R192) -/

/-- `UF.SEND p`, row IDLE: the lifecycle, the size, the frame; then WAIT_LOCK (R192). -/
def execUfSend (inst : Byte) (p : List Byte) (s : State) : Out :=
  onUart inst s fun t i u s =>
    whenReady .framed t u s (.next (
      if payloadFits p then s.addOp t (.send i (buildFrame p) .waitLock)
      else s.raise t (.size 0 p.length)))

/-- The rows of the send sequencer after IDLE (R192). -/
def sendStep (t i : Nat) (f : List Byte) (q : SendSeq) (u : Uart) (s : State) : State :=
  match q with
  | .idle => s
  | .waitLock =>
    if u.sendLock.isFree then
      (s.setUart i { u with sendLock := .held (.host t) }).setOp t (.send i f .toTx)
    else s
  | .toTx => (s.setUart i { u with dir := .tx }).setOp t (.send i f (.write 0))
  | .write k =>
    match f[k]? with
    | some b =>
      (s.setUart i (u.tx s.cfg b)).setOp t (.send i f (if k + 1 < f.length then .write (k + 1) else .flush))
    | none => s.setOp t (.send i f .flush)
  | .flush => s.setOp t (.send i f .hold)
  | .hold => s.setOp t (.send i f .toRx)
  | .toRx => (s.setUart i { u with dir := .rx }).setOp t (.send i f .done)
  | .done => (s.setUart i { u with sendLock := .free }).complete t .none

/-! ### Receiving (R196) -/

/-- `RXBUF <- RXBUF ++ UartRxTake()`, then `SCAN`: the buffer form fills RXQ; the byte-serial registers follow on the same bytes (R182). -/
def Uart.receive (u : Uart) : Uart :=
  let r := scan (u.rxBuf ++ u.rxAvail)
  ({ u with rxBuf := r.buf, rxq := u.rxq ++ r.out, rxAvail := [] }).setScanRegs
    (scanBytes u.scanRegs u.rxAvail).1

/-- One iteration of UF_RX (R196); the back-off is a step of its own (log entry 11). -/
def Uart.ufRxStep (u : Uart) : Uart :=
  match u.seqUfRx with
  | .stopped => u
  | .backoff => { u with seqUfRx := .running }
  | .running =>
    if !u.run then { u with seqUfRx := .stopped }
    else if u.readErr then
      { u with diag := u.diag ++ [.hwReadErr], seqUfRx := .backoff, readErr := false }
    else if u.uartOpen && !u.rxAvail.isEmpty then u.receive
    else u

/-- `UF_RX.STEP` (R196). -/
def execUfRxStep (inst : Byte) (s : State) : Out :=
  .next (match s.uarts[inst.toNat]? with
    | some u => s.setUart inst.toNat u.ufRxStep
    | none => s)

/-! ### Reading (R198) -/

/-- The test and the pop, one indivisible action (20_memory.md R86): `none` when RXQ is empty. -/
def popFrame (i : Nat) (u : Uart) (s : State) : Option (List Byte × State) :=
  match u.rxq with
  | p :: rest => some (p, s.setUart i { u with rxq := rest })
  | [] => none

/-- `UF.READ_FRAME t` (R198): a timeout of 0 polls; otherwise the operation waits while RXQ is empty. -/
def execUfReadFrame (inst : Byte) (timeout : Option Word32) (s : State) : Out :=
  onUart inst s fun t i u s =>
    whenReady .framed t u s (.next (
      match popFrame i u s with
      | some (p, s') => s'.answer t (.opt (some p))
      | none =>
        match timeout with
        | none => s.addOp t (.readFrame i false)
        | some ms => if ms = 0 then s.answer t (.opt none) else s.addOp t (.readFrame i true)))

/-- A waiting `UF.READ_FRAME` looks again; with a timeout it may end with NOTHING (R198, 20_memory.md R101). That it still pops a payload that RXQ holds after a shutdown is the model's choice, which keeps RXQ (R199, 93 U4; DESIGN CHOICE, log entry 27). -/
def readFrameStep (t i : Nat) (bounded timeout : Bool) (u : Uart) (s : State) : State :=
  match popFrame i u s with
  | some (p, s') => s'.complete t (.opt (some p))
  | none => if bounded && timeout then s.complete t (.opt none) else s

/-! ### Shutdown (R199) -/

/-- A `UF.SEND` is in progress on instance `i`. -/
def State.sendInProgress (i : Nat) (s : State) : Bool :=
  s.ops.any fun e => match e.2 with
    | .send j _ _ => j == i
    | _ => false

/-- A `UF.SHUTDOWN` or `UR.SHUTDOWN` is in progress on instance `i`. -/
def State.shutdownInProgress (i : Nat) (s : State) : Bool :=
  s.ops.any fun e => match e.2 with
    | .ufShutdown j _ => j == i
    | .urShutdown j _ => j == i
    | _ => false

/-- `UF.SHUTDOWN`, step 1 (R199). A run in which it overlaps another shutdown or a `UF.SEND` has no meaning (93 U1, U2). -/
def execUfShutdown (inst : Byte) (s : State) : Out :=
  onUart inst s fun t i u s =>
    if u.mode == .framed && s.shutdownInProgress i then .refused .overlappingShutdown
    else
      whenReady .framed t u s (
        if s.sendInProgress i then .refused .shutdownDuringSend
        else .next ((s.setUart i { u.setRun false with lc := .shut }).addOp t (.ufShutdown i .join)))

/-- Steps 2 to 4 of `UF.SHUTDOWN` (R199). -/
def ufShutdownStep (t i : Nat) (st : UfShut) (timeout : Bool) (u : Uart) (s : State) : State :=
  match st with
  | .join => if u.seqUfRx == .stopped || timeout then s.setOp t (.ufShutdown i .close) else s
  | .close => (s.setUart i { u with uartOpen := false }).setOp t (.ufShutdown i .release)
  | .release => (s.setUart i { u with dir := .released }).complete t .none

end Sys2Proof.Machine
end

