-- ==== Sys2Proof/Machine/UartRaw.lean ====
section
/-! DEFINITION. The raw UART controller (43_uart_raw.md): construction, writing, reading, shutdown, and the agents UR_TX and UR_RX. -/

namespace Sys2Proof.Machine

/-- A controller constructed in raw mode (R220). -/
def Uart.constructRaw (c : RawConfig) (u : Uart) : Uart :=
  { u.setShutReq false with
    mode := .raw, baud := c.baud, databits := c.databits, stopbits := c.stopbits, parity := c.parity
    uartOpen := true, dir := .rx
    txPend := [], rxAcc := [], txBatch := []
    seqUrTx := .wait, seqUrRx := .waitReady
    lc := .running }

/-- `UR.CONSTRUCT baud, databits, stopbits, parity` (R220). -/
def execUrConstruct (inst : Byte) (baud : Word32) (databits stopbits parity : Byte) (s : State) : Out :=
  onUart inst s fun t i u s =>
    if u.lc = .unconstructed then
      match checkRawConfig baud databits stopbits parity with
      | .ok c => .next ((s.setUart i (u.constructRaw c)).answer t .none)
      | .error f => .next (s.raise t (.config f))
    else .next (s.raise t (.state u.lc.asLc))

/-- The data path has a meaning only for 8 data bits (30_encoding.md R116, 93 U3). -/
def whenBytes (u : Uart) (k : Out) : Out := if u.databits = 8 then k else .refused .dataBitsUnmapped

/-! ### Writing (R221) -/

/-- The append under TXLOCK, one indivisible action (R221, 20_memory.md R85); `none` while TXLOCK is not FREE. -/
def appendPending (i : Nat) (d : List Byte) (u : Uart) (s : State) : Option State :=
  if u.txLock.isFree then some (s.setUart i { u with txPend := u.txPend ++ d }) else none

/-- `UR.WRITE d` (R221). -/
def execUrWrite (inst : Byte) (d : List Byte) (s : State) : Out :=
  onUart inst s fun t i u s =>
    whenReady .raw t u s (whenBytes u (.next (
      match appendPending i d u s with
      | some s' => s'.answer t .none
      | none => s.addOp t (.urWrite i d))))

/-- A `UR.WRITE` that waits for TXLOCK looks again. -/
def urWriteStep (t i : Nat) (d : List Byte) (u : Uart) (s : State) : State :=
  match appendPending i d u s with
  | some s' => s'.complete t .none
  | none => s

/-! ### UR_TX (R223) -/

/-- One row of UR_TX. In WAIT a requested shutdown wins over pending bytes. -/
def Uart.urTxStep (c : Config) (u : Uart) : Uart :=
  match u.seqUrTx with
  | .wait =>
    if u.shutReq then { u with seqUrTx := .stopped }
    else if !u.txPend.isEmpty && u.txLock.isFree then
      { u with txBatch := u.txPend, txPend := [], seqUrTx := .drained }
    else u
  | .drained => { u with dir := .tx, seqUrTx := .writing }
  | .writing => { u.txAll c u.txBatch with seqUrTx := .txOff }
  | .txOff => { u with dir := .rx, txBatch := [], seqUrTx := .wait }
  | .stopped => u

/-- `UR_TX.STEP` (R223). -/
def execUrTxStep (inst : Byte) (s : State) : Out :=
  match s.uarts[inst.toNat]? with
  | some u =>
    if u.seqUrTx = .stopped then .next s
    else whenBytes u (.next (s.setUart inst.toNat (u.urTxStep s.cfg)))
  | none => .next s

/-! ### UR_RX (R224) and reading (R225) -/

/-- One row of UR_RX. -/
def Uart.urRxStep (u : Uart) : Uart :=
  match u.seqUrRx with
  | .waitReady =>
    if u.shutReq then { u with seqUrRx := .stopped }
    else if u.uartOpen && !u.rxAvail.isEmpty then { u with rxAvail := [], seqUrRx := .draining u.rxAvail }
    else u
  | .draining bs =>
    if u.rxLock.isFree then { u with rxAcc := u.rxAcc ++ bs, seqUrRx := .waitReady } else u
  | .stopped => u

/-- `UR_RX.STEP` (R224). -/
def execUrRxStep (inst : Byte) (s : State) : Out :=
  match s.uarts[inst.toNat]? with
  | some u =>
    if u.seqUrRx = .stopped then .next s
    else whenBytes u (.next (s.setUart inst.toNat u.urRxStep))
  | none => .next s

/-- The drain under RXLOCK, one indivisible action (R225); `none` while RXLOCK is not FREE. -/
def drainReceived (i : Nat) (u : Uart) (s : State) : Option (List Byte × State) :=
  if u.rxLock.isFree then some (u.rxAcc, s.setUart i { u with rxAcc := [] }) else none

/-- `UR.READ` (R225). -/
def execUrRead (inst : Byte) (s : State) : Out :=
  onUart inst s fun t i u s =>
    whenReady .raw t u s (whenBytes u (.next (
      match drainReceived i u s with
      | some (d, s') => s'.answer t (.bytes d)
      | none => s.addOp t (.urRead i))))

/-- A `UR.READ` that waits for RXLOCK looks again. -/
def urReadStep (t i : Nat) (u : Uart) (s : State) : State :=
  match drainReceived i u s with
  | some (d, s') => s'.complete t (.bytes d)
  | none => s

/-! ### Shutdown (R227) -/

/-- `UR.SHUTDOWN`, step 1 (R227). A run in which it overlaps another shutdown has no meaning (93 U2). -/
def execUrShutdown (inst : Byte) (s : State) : Out :=
  onUart inst s fun t i u s =>
    if u.mode == .raw && s.shutdownInProgress i then .refused .overlappingShutdown
    else
      whenReady .raw t u s
        (.next ((s.setUart i { u with lc := .shut }).addOp t (.urShutdown i .drain)))

/-- Steps 2 to 5 of `UR.SHUTDOWN` (R227). A join that times out while a batch is in progress has no meaning (93 U1). After a drain that timed out the bytes in TXPEND are never sent and the register keeps them, since no step of R227 writes it, though 60_exceptions.md R319 calls them discarded (DESIGN CHOICE, log entry 27). -/
def urShutdownStep (t i : Nat) (st : UrShut) (timeout : Bool) (u : Uart) (s : State) : Out :=
  match st with
  | .drain =>
    .next (if (u.txPend.isEmpty && u.seqUrTx == .wait) || timeout then s.setOp t (.urShutdown i .flag) else s)
  | .flag => .next ((s.setUart i (u.setShutReq true)).setOp t (.urShutdown i .join))
  | .join =>
    if u.seqUrTx == .stopped && u.seqUrRx == .stopped then .next (s.setOp t (.urShutdown i .close))
    else if timeout then
      if u.batchInProgress then .refused .joinTimeoutDuringBatch
      else .next (s.setOp t (.urShutdown i .close))
    else .next s
  | .close => .next ((s.setUart i { u with uartOpen := false, dir := .released }).complete t .none)

end Sys2Proof.Machine
end

