-- ==== Sys2Proof/Machine/Environment.lean ====
section
/-! DEFINITION. What reaches the block from outside: bytes and read errors of the serial line (20_memory.md R98, 42_uart_framed.md R197), a whole frame (30_encoding.md R111), the radio-length response (R128), and the IRQ input (45_radio_txrx.md R286). -/

namespace Sys2Proof.Machine

/-- The serial line of instance `inst` carries bytes (R98). -/
def lineBytes (inst : Byte) (bs : List Byte) (s : State) : State :=
  match s.uarts[inst.toNat]? with
  | some u => s.setUart inst.toNat (u.deliver s.cfg bs)
  | none => s

/-- The UART of instance `inst` reports a read error (R197): nothing is added to or removed from any buffer. -/
def lineError (inst : Byte) (s : State) : State :=
  match s.uarts[inst.toNat]? with
  | some u => s.setUart inst.toNat { u with readErr := true }
  | none => s

/-- The IRQ input takes a level (R286). -/
def irqInput (level : Bool) (s : State) : State := s.setRadio (s.radio.irqInput level)

/-- The bytes of a frame with any checksum bytes, in transmission order (R111). -/
def frameBytes (payload : List Byte) (lo hi : Byte) : List Byte :=
  sof :: lenByte payload :: (payload ++ [lo, hi])

/-- `FRAME`: the bytes of a frame, good or bad, arrive on the line of instance `inst`; UF_RX or UR_RX takes them (R111, 20_memory.md R98; log entry 21). -/
def execFrame (inst : Byte) (payload : List Byte) (lo hi : Byte) (s : State) : Out :=
  .next (lineBytes inst (frameBytes payload lo hi) s)

/-- `RXLEN`: the two length bytes reach the receive handler (R128, 45_radio_txrx.md R287 row LEN; log entry 22). -/
def execRxlen (hi lo : Byte) (s : State) : Out := .next (applyRxLen hi lo s)

end Sys2Proof.Machine
end

