-- ==== Sys2Proof/Machine/HostSteps.lean ====
section
/-! DEFINITION. The later rows of the host operations in progress: which row a ticket's operation takes (42_uart_framed.md R192, R198, R199; 43_uart_raw.md R221, R225, R227; 44_radio_handshake.md R260; 45_radio_txrx.md R280, R290, R291). -/

namespace Sys2Proof.Machine

/-- A row on instance `i`, if the block has it. -/
def onInstance (i : Nat) (s : State) (k : Uart → Out) : Out :=
  match s.uarts[i]? with
  | some u => k u
  | none => .next s

/-- The operation with ticket `t` takes its next row. A row that is not enabled, and a ticket that names no operation, change nothing. -/
def resume (t : Nat) (timeout : Bool) (s : State) : Out :=
  match s.findOp t with
  | none => .next s
  | some (.send i f q) => onInstance i s fun u => .next (sendStep t i f q u s)
  | some (.readFrame i bounded) => onInstance i s fun u => .next (readFrameStep t i bounded timeout u s)
  | some (.ufShutdown i st) => onInstance i s fun u => .next (ufShutdownStep t i st timeout u s)
  | some (.urWrite i d) => onInstance i s fun u => .next (urWriteStep t i d u s)
  | some (.urRead i) => onInstance i s fun u => .next (urReadStep t i u s)
  | some (.urShutdown i st) => onInstance i s fun u => urShutdownStep t i st timeout u s
  | some (.rdConstruct ch props) => .next (consStep t ch props s)
  | some (.rdTransmit ps) => .next (rdTransmitStep t ps s)
  | some .rdReceive => .next (rdReceiveStep t s)
  | some (.rdShutdown st) => .next (rdShutdownStep t st timeout s)

end Sys2Proof.Machine
end

