-- ==== Sys2Proof/Machine/Dispatch.lean ====
section
/-! DEFINITION. The meaning of every operation of the table: one arm each. -/

namespace Sys2Proof.Machine

def exec (i : Instr) (s : State) : Host.Outcome State Fault Refusal :=
  match i with
  | .crcInit => Sys2Proof.Machine.execCrcInit s
  | .crcUpdate b => Sys2Proof.Machine.execCrcUpdate b s
  | .crcRead => Sys2Proof.Machine.execCrcRead s
  | .crcSum bs => Sys2Proof.Machine.execCrcSum bs s
  | .frmBuild p => Sys2Proof.Machine.execFrmBuild p s
  | .frmParse bs => Sys2Proof.Machine.execFrmParse bs s
  | .ufConstruct inst baud => Sys2Proof.Machine.execUfConstruct inst baud s
  | .ufSend inst p => Sys2Proof.Machine.execUfSend inst p s
  | .ufReadFrame inst t => Sys2Proof.Machine.execUfReadFrame inst t s
  | .ufShutdown inst => Sys2Proof.Machine.execUfShutdown inst s
  | .urConstruct inst baud d sb p => Sys2Proof.Machine.execUrConstruct inst baud d sb p s
  | .urWrite inst d => Sys2Proof.Machine.execUrWrite inst d s
  | .urRead inst => Sys2Proof.Machine.execUrRead inst s
  | .urShutdown inst => Sys2Proof.Machine.execUrShutdown inst s
  | .rdConstruct ch props => Sys2Proof.Machine.execRdConstruct ch props s
  | .rdTransmit ps => Sys2Proof.Machine.execRdTransmit ps s
  | .rdReceive => Sys2Proof.Machine.execRdReceive s
  | .rdShutdown => Sys2Proof.Machine.execRdShutdown s
  | .ufRxStep inst => Sys2Proof.Machine.execUfRxStep inst s
  | .urTxStep inst => Sys2Proof.Machine.execUrTxStep inst s
  | .urRxStep inst => Sys2Proof.Machine.execUrRxStep inst s
  | .rdTxStep giveUp => Sys2Proof.Machine.execRdTxStep giveUp s
  | .rdIrqStep => Sys2Proof.Machine.execRdIrqStep s
  | .rcPowerUp => Sys2Proof.Machine.execRcPowerUp s
  | .rcReadStatus k => Sys2Proof.Machine.execRcReadStatus k s
  | .rcGpioCfg => Sys2Proof.Machine.execRcGpioCfg s
  | .rcSetProperty p => Sys2Proof.Machine.execRcSetProperty p s
  | .rcClearTxFifo => Sys2Proof.Machine.execRcClearTxFifo s
  | .rcWriteTxFifo pkt => Sys2Proof.Machine.execRcWriteTxFifo pkt s
  | .rcStartTx ch n => Sys2Proof.Machine.execRcStartTx ch n s
  | .rcStartRx ch => Sys2Proof.Machine.execRcStartRx ch s
  | .rcRxLen => Sys2Proof.Machine.execRcRxLen s
  | .rcReadRxFifo n => Sys2Proof.Machine.execRcReadRxFifo n s
  | .frame inst payload lo hi => Sys2Proof.Machine.execFrame inst payload lo hi s
  | .rxlen hi lo => Sys2Proof.Machine.execRxlen hi lo s

end Sys2Proof.Machine
end

