-- ==== Sys2Proof/Machine/Step.lean ====
section
/-! DEFINITION. The step: the first stimulus of the script happens. A format-H word is decoded and executed, or answered with E_ILLEGAL (60_exceptions.md R318); an agent's step, and a frame on the line, are instructions of the table; the rest are the environment's events. -/

namespace Sys2Proof.Machine

/-- The instruction of an agent's step. -/
def AgentStep.instr : AgentStep → Instr
  | .ufRx inst => .ufRxStep inst
  | .urTx inst => .urTxStep inst
  | .urRx inst => .urRxStep inst
  | .rdTx giveUp => .rdTxStep giveUp
  | .rdIrq => .rdIrqStep

/-- What a stimulus does. Each is a whole row, so that a hardware reset, itself a stimulus, comes between rows only (70_reset_and_hazards.md R351; DESIGN CHOICE, log entry 48). -/
def perform (e : Stimulus) (s : State) : Host.Outcome State Fault Refusal :=
  match e with
  | .issue word =>
    match decodeHost word with
    | .ok i => exec i s
    | .error _ => .next (s.accept.raise s.nextTicket .illegal)
  | .resume t timeout => resume t timeout s
  | .agent a => exec a.instr s
  | .line inst bs =>
    match decodeLine inst bs with
    | .ok i => exec i s
    | .error _ => .next (lineBytes inst bs s)
  | .lineError inst => .next (lineError inst s)
  | .irq level => .next (irqInput level s)
  | .hardReset => .next s.hardReset

/-- One step: the first stimulus of the script; with an empty script nothing happens (70_reset_and_hazards.md R350; log entry 1). -/
def step (s : State) : Host.Outcome State Fault Refusal :=
  match s.script with
  | [] => .next s
  | e :: rest => perform e { s with script := rest }

/-- The stimulus that presents a word of the operation table: a row of 8 bits is a frame on the line of instance 0, a wider one is issued by the host (log entry 37). -/
def tableStimulus (nbits w : Nat) : Stimulus :=
  if nbits ≤ 8 then .line 0 (tableBytes nbits w) else .issue (tableBytes nbits w)

/-- `s` with this word as the next thing that happens (log entry 2). -/
def State.withFetchWord (s : State) (nbits w : Nat) : State :=
  { s with script := tableStimulus nbits w :: s.script }

end Sys2Proof.Machine
end

