-- ==== Sys2Proof/Machine/Responses.lean ====
section
/-! DEFINITION. The bytes of a response (30_encoding.md R130; 60_exceptions.md R310, R311). A response that its count fields cannot hold has no bytes (log entry 20). -/

namespace Sys2Proof.Machine

/-- The LC code of E_STATE (60_exceptions.md R311). -/
def lcCode : RadioLc → Byte
  | .unconstructed => 0
  | .constructing => 1
  | .running => 2
  | .failed => 3
  | .shut => 4

/-- A `U16` count field, when the number fits. -/
def u16Field (n : Nat) : Option (List Byte) := if n < 65536 then some (countBytes n) else none

/-- A `U32` field, when the number fits. -/
def u32Field (n : Nat) : Option (List Byte) :=
  if n < 4294967296 then some (u32Bytes (BitVec.ofNat 32 n)) else none

/-- `BYTES` (R130). -/
def bytesField (b : List Byte) : Option (List Byte) := (u16Field b.length).map (· ++ b)

/-- The items of a `LIST` (R130). -/
def itemsField : List (List Byte) → Option (List Byte)
  | [] => some []
  | b :: bs =>
    match bytesField b, itemsField bs with
    | some x, some y => some (x ++ y)
    | _, _ => none

/-- The result field of an `OK` response (R131). -/
def resultBytes : Result → Option (List Byte)
  | .none => some []
  | .u16 w => some (u16Bytes w)
  | .bytes b => bytesField b
  | .opt none => some [0x00]
  | .opt (some b) => (bytesField b).map (0x01 :: ·)
  | .list l =>
    match u16Field l.length, itemsField l with
    | some n, some y => some (n ++ y)
    | _, _ => none

/-- The field codes of E_CONFIG (R311). -/
def fieldBytes : ConfigField → Option (List Byte)
  | .baud => some [1]
  | .databits => some [2]
  | .stopbits => some [3]
  | .parity => some [4]
  | .channel => some [5]
  | .properties n => (u16Field n).map (6 :: ·)

/-- The step codes of E_HANDSHAKE (R311): the numbers 3 to 8 of the construction steps, and the property index after 5. -/
def stepBytes : HandshakeStep → Option (List Byte)
  | .powerUp => some [3]
  | .gpio => some [4]
  | .prop i => if i < 256 then some [5, BitVec.ofNat 8 i] else none
  | .int => some [6]
  | .rx => some [8]

/-- STATUS and what follows it (R310, R311). -/
def errBytes : Err → Option (List Byte)
  | .size i n =>
    match u16Field i, u32Field n with
    | some x, some y => some (0x01 :: (x ++ y))
    | _, _ => none
  | .config f => (fieldBytes f).map (0x02 :: ·)
  | .handshake st => (stepBytes st).map (0x03 :: ·)
  | .state lc => some [0x04, lcCode lc]
  | .illegal => some [0x05]

/-- The response as the host reads it: `[STATUS]` and the result field (R130). -/
def responseBytes : Response → Option (List Byte)
  | .ok r => (resultBytes r).map (0x00 :: ·)
  | .error e => errBytes e

end Sys2Proof.Machine
end

