-- ==== Sys2Proof/WellFormed.lean ====
section
/-! DEFINITION. The operands each encoding admits (30_encoding.md R111, R122, R130): a `BYTES`, a `LIST` and a record list count their items in 16 bits, LEN is one byte, a packet written to the chip has 1 to 64 bytes. -/

namespace Sys2Proof

/-- A byte sequence that `BYTES` can carry: its count is a `U16` (R130). -/
def wfBytes (s : List Byte) : Bool := s.length < 65536

/-- A property record whose VALUES fit `BYTES` (R131). -/
def wfRecord (p : PropRecord) : Bool := wfBytes p.values

/-- Every operand at a value its encoding admits. -/
def Instr.wf : Instr → Bool
  | .crcInit => true
  | .crcUpdate _ => true
  | .crcRead => true
  | .crcSum s => wfBytes s
  | .frmBuild p => wfBytes p
  | .frmParse s => wfBytes s
  | .ufConstruct _ _ => true
  | .ufSend _ p => wfBytes p
  | .ufReadFrame _ _ => true
  | .ufShutdown _ => true
  | .urConstruct _ _ _ _ _ => true
  | .urWrite _ d => wfBytes d
  | .urRead _ => true
  | .urShutdown _ => true
  | .rdConstruct _ props => props.length < 65536 && props.all wfRecord
  | .rdTransmit ps => ps.length < 65536 && ps.all wfBytes
  | .rdReceive => true
  | .rdShutdown => true
  | .ufRxStep _ => true
  | .urTxStep _ => true
  | .urRxStep _ => true
  | .rdTxStep _ => true
  | .rdIrqStep => true
  | .rcPowerUp => true
  | .rcReadStatus k => k < 65536
  | .rcGpioCfg => true
  | .rcSetProperty _ => true
  | .rcClearTxFifo => true
  | .rcWriteTxFifo pkt => 1 ≤ pkt.length && pkt.length ≤ 64
  | .rcStartTx _ n => 1 ≤ n && n ≤ 64
  | .rcStartRx _ => true
  | .rcRxLen => true
  | .rcReadRxFifo n => n < 65536
  | .frame _ payload _ _ => payload.length ≤ 255
  | .rxlen _ _ => true

/-- The operations that a format-H word encodes (30_encoding.md R131, kind "host"). -/
def Instr.isHost : Instr → Bool
  | .crcInit | .crcUpdate _ | .crcRead | .crcSum _ | .frmBuild _ | .frmParse _ => true
  | .ufConstruct _ _ | .ufSend _ _ | .ufReadFrame _ _ | .ufShutdown _ => true
  | .urConstruct _ _ _ _ _ | .urWrite _ _ | .urRead _ | .urShutdown _ => true
  | .rdConstruct _ _ | .rdTransmit _ | .rdReceive | .rdShutdown => true
  | .ufRxStep _ | .urTxStep _ | .urRxStep _ | .rdTxStep _ | .rdIrqStep => false
  | .rcPowerUp | .rcReadStatus _ | .rcGpioCfg | .rcSetProperty _ | .rcClearTxFifo => false
  | .rcWriteTxFifo _ | .rcStartTx _ _ | .rcStartRx _ | .rcRxLen | .rcReadRxFifo _ => false
  | .frame _ _ _ _ | .rxlen _ _ => false

end Sys2Proof
end

