-- ==== Sys2Proof/Safety.lean ====
section
/-! DEFINITION. The terms in which claims are stated: the state after an answer, runs of an operation or an agent, when the block is at rest (20_memory.md R103), and the invariants that every step keeps. -/

namespace Sys2Proof.Machine

/-! ### Answers and runs -/

/-- An operation was issued and answered with `r`; nothing else changed. -/
def State.answered (s : State) (r : Response) : State :=
  { s with nextTicket := s.nextTicket + 1, responses := s.responses ++ [(s.nextTicket, r)] }

/-- An operation was issued and is in progress as `op`; nothing else changed. -/
def State.issued (s : State) (op : HostOp) : State :=
  { s with nextTicket := s.nextTicket + 1, ops := s.ops ++ [(s.nextTicket, op)] }

/-- The operation with ticket `t` has ended with response `r`; nothing else changed. -/
def State.ended (s : State) (t : Nat) (r : Response) : State :=
  { s with ops := s.ops.filter (fun e => e.1 != t), responses := s.responses ++ [(t, r)] }

/-- The ticket of the next operation belongs to no operation in progress. -/
def State.FreshTicket (s : State) : Prop := ∀ e ∈ s.ops, e.1 ≠ s.nextTicket

/-- `n` rows of the operation with ticket `t`, one after the other. -/
def resumeMany : Nat → Nat → Bool → State → Out
  | 0, _, _, s => .next s
  | n + 1, t, timeout, s =>
    match resume t timeout s with
    | .next s' => resumeMany n t timeout s'
    | o => o

/-- Instructions executed one after the other. -/
def execMany : List Instr → State → Out
  | [], s => .next s
  | i :: is, s =>
    match exec i s with
    | .next s' => execMany is s'
    | o => o

/-- Stimuli performed one after the other. -/
def performMany : List Stimulus → State → Out
  | [], s => .next s
  | e :: es, s =>
    match perform e s with
    | .next s' => performMany es s'
    | o => o

/-- `BYTES` in an operand field: the count, high byte first, then the bytes (30_encoding.md R130). -/
def bytesOperand (b : List Byte) : List Byte := BitVec.ofNat 8 (b.length / 256) :: BitVec.ofNat 8 b.length :: b

/-! ### The block at rest (20_memory.md R103) -/

/-- A UART controller with every mutex free, nothing pending and each of its agents waiting or stopped: UR_RX holds no bytes it has taken and UF_RX does not back off. SEQ_SCAN waits for bytes in every state, since RXBUF may hold a partial frame. Bytes that the line has delivered and no agent has taken, and a read error that UF_RX has not seen, do not count, which is the model's choice: R103 names neither (DESIGN CHOICE, log entry 45). -/
def Uart.quiet (u : Uart) : Bool :=
  u.sendLock.isFree && u.txLock.isFree && u.rxLock.isFree && u.txPend.isEmpty && u.txBatch.isEmpty
    && (u.seqUrTx == .wait || u.seqUrTx == .stopped) && (u.seqUrRx == .waitReady || u.seqUrRx == .stopped)
    && (u.seqUfRx == .running || u.seqUfRx == .stopped)

/-- A radio controller with every mutex free, nothing pending and its sequencers waiting or stopped, the construction's before its first row or at its end. -/
def Radio.quiet (r : Radio) : Bool :=
  r.spiLock.isFree && r.txqLock.isFree && r.rxlLock.isFree && r.txq.isEmpty && r.txBatchR.isEmpty
    && r.irqPend == 0 && (r.seqRdTx == .wait || r.seqRdTx == .stopped) && r.seqRdIrq == .idle && r.seqPoll == .idle
    && (r.seqCons == .s0Guard || r.seqCons == .done || r.seqCons == .failed)

/-- The number of transitions from 1 to 0 in a sequence of levels that starts from `level` (45_radio_txrx.md R286). -/
def fallingEdges : Bool → List Bool → Nat
  | _, [] => 0
  | level, l :: ls => (if level && !l then 1 else 0) + fallingEdges l ls

/-- The environment of the line delivers something: bytes, or a read error (R98). -/
def Stimulus.fromLine : Stimulus → Bool
  | .line _ bs => !bs.isEmpty
  | .lineError _ => true
  | .issue _ | .resume _ _ | .agent _ | .irq _ | .hardReset => false

/-- The level that a stimulus gives the IRQ input. -/
def Stimulus.irqLevel : Stimulus → Option Bool
  | .irq level => some level
  | .issue _ | .resume _ _ | .agent _ | .line _ _ | .lineError _ | .hardReset => none

/-- "The environment delivers nothing more": what is still to happen brings no bytes and no read error on a line (R98) and no falling edge on IRQ (R99). What the host issues next (R102), and which agent moves, does not count. -/
def State.nothingDelivered (s : State) : Bool :=
  s.script.all (fun e => !e.fromLine) && fallingEdges s.radio.irqLine (s.script.filterMap Stimulus.irqLevel) == 0

/-- Quiescence: no operation in progress (so that SEQ_SEND is IDLE), everything quiet, and the environment delivers nothing more. -/
def State.quiescent (s : State) : Bool :=
  s.ops.isEmpty && s.uarts.all Uart.quiet && s.radio.quiet && s.nothingDelivered

/-! ### Sending rows -/

/-- The send sequencer is between taking SENDLOCK and freeing it (42_uart_framed.md R192). -/
def SendSeq.locked : SendSeq → Bool
  | .idle | .waitLock => false
  | .toTx | .write _ | .flush | .hold | .toRx | .done => true

/-- The send sequencer is between switching to TX and switching back (42_uart_framed.md R192). -/
def SendSeq.transmitting : SendSeq → Bool
  | .write _ | .flush | .hold | .toRx => true
  | .idle | .waitLock | .toTx | .done => false

/-! ### The scanner's two forms (41_framer.md R182) -/

/-- The scanner registers in HUNT right after reset or construction. -/
def huntRegs : ScanRegs := ⟨.hunt, 0, 0, crcInitial, 0, []⟩

/-- RXBUF after a completed scan and the registers of the byte-serial form correspond (R182). -/
def ScanAgrees (buf : List Byte) (r : ScanRegs) : Prop :=
  (buf = [] ∧ r.seq = .hunt)
  ∨ (buf = [sof] ∧ r.seq = .len)
  ∨ (∃ n q, buf = sof :: n :: q ∧ q.length < n.toNat ∧ r.seq = .data ∧ r.n = n ∧ r.pay = q
      ∧ r.cnt.toNat = q.length ∧ r.crc = crcSum (n :: q))
  ∨ (∃ n q, buf = sof :: n :: q ∧ q.length = n.toNat ∧ r.seq = .crcLo ∧ r.pay = q ∧ r.crc = crcSum (n :: q))
  ∨ (∃ n q lo, buf = sof :: n :: (q ++ [lo]) ∧ q.length = n.toNat ∧ r.seq = .crcHi ∧ r.pay = q
      ∧ r.crc = crcSum (n :: q) ∧ r.lo = lo)

/-- The buffer form run after each chunk of a received stream: RXBUF at the end and all payloads delivered (R179). -/
def scanChunks (buf : List Byte) : List (List Byte) → Scan
  | [] => ⟨buf, []⟩
  | c :: cs => ⟨(scanChunks (scan (buf ++ c)).buf cs).buf, (scan (buf ++ c)).out ++ (scanChunks (scan (buf ++ c)).buf cs).out⟩

/-! ### SPI_LOG as blocks (44_radio_handshake.md R246, R247) -/

/-- The transactions of one radio step: the command, nothing read back, then the status reads with their answers. -/
def stepLog (c : Config) (cmd : List Byte) (reads : List (List Byte)) : List (List Byte × List Byte) :=
  (cmd, []) :: reads.map (fun r => (c.opcReadStatus.bytes, r))

/-- The status reads of one ready-poll for `k` response bytes: at least one, and only the last can be ready (R246). -/
def PollReads (c : Config) (k : Nat) (reads : List (List Byte)) : Prop :=
  reads ≠ [] ∧ (∀ r ∈ reads, r.length = 1 + k) ∧ ∀ r ∈ reads.dropLast, r.head? ≠ some c.ctsReady

/-- What the last status read of a poll makes of the radio step (R246). -/
def pollResult (c : Config) (reads : List (List Byte)) : StepRes :=
  match reads.getLast? with
  | some (r0 :: resp) => if r0 = c.ctsReady then .ready resp else .timeout
  | _ => .timeout

/-- `t` is `s` after one radio step with command `cmd` and `k` response bytes (R247): SPI_LOG gained one block, `res` says how it ended, and nothing else of the block changed. -/
def RadioStepDone (cmd : List Byte) (k : Nat) (s t : State) : Prop :=
  ∃ reads, PollReads s.cfg k reads
    ∧ t = { s with
        radio := { s.radio with
          spiLog := s.radio.spiLog ++ stepLog s.cfg cmd reads, seqPoll := .idle, res := pollResult s.cfg reads }
        spiIn := t.spiIn, pollLimits := t.pollLimits, draws := t.draws }

/-- The radio step `cmd` with `k` response bytes, taken from `s`, ends in a state of which `P` holds (44_radio_handshake.md R247). -/
def AfterRadioStep (cmd : List Byte) (k : Nat) (s : State) (P : State → Prop) : Prop :=
  ∃ s1, RadioStepDone cmd k s s1 ∧ P s1

/-- The block of one radio step whose first status read is ready and carries `resp`. -/
def readyLog (c : Config) (cmd resp : List Byte) : List (List Byte × List Byte) :=
  stepLog c cmd [c.ctsReady :: resp]

/-- The blocks of one packet when every poll is ready at once: clear, write, start (45_radio_txrx.md R283). -/
def packetLog (c : Config) (ch : Byte) (p : List Byte) : List (List Byte × List Byte) :=
  readyLog c c.opcClearTxFifo.bytes [] ++ readyLog c (c.opcWriteTxFifo.bytes ++ p) []
    ++ readyLog c (c.opcStartTx.bytes ++ Config.argsStartTx ch p.length) []

/-- The bytes of a property-set command (30_encoding.md R124). -/
def propertyBytes (c : Config) (p : PropRecord) : List Byte :=
  c.opcSetProperty.bytes ++ p.group :: p.count :: p.start :: p.values

/-- Each of the nine commands that a radio step issues, with the bytes out and the number of response bytes (30_encoding.md R122; 44_radio_handshake.md R250 to R259). -/
def RadioCommand (c : Config) (i : Instr) (cmd : List Byte) (k : Nat) : Prop :=
  (i = .rcPowerUp ∧ cmd = c.opcPowerUp.bytes ++ c.argsPowerUp ∧ k = 0)
  ∨ (i = .rcGpioCfg ∧ cmd = c.opcGpioCfg.bytes ++ c.argsGpioCfg ∧ k = 0)
  ∨ (∃ p, i = .rcSetProperty p ∧ cmd = propertyBytes c p ∧ k = 0)
  ∨ (i = .rcClearTxFifo ∧ cmd = c.opcClearTxFifo.bytes ∧ k = 0)
  ∨ (∃ pkt, i = .rcWriteTxFifo pkt ∧ cmd = c.opcWriteTxFifo.bytes ++ pkt ∧ k = 0)
  ∨ (∃ ch n, i = .rcStartTx ch n ∧ cmd = c.opcStartTx.bytes ++ Config.argsStartTx ch n ∧ k = 0)
  ∨ (∃ ch, i = .rcStartRx ch ∧ cmd = c.opcStartRx.bytes ++ Config.argsStartRx ch ∧ k = 0)
  ∨ (i = .rcRxLen ∧ cmd = c.opcRxLen.bytes ∧ k = 2)
  ∨ (i = .rcReadRxFifo k ∧ cmd = c.opcReadRxFifo.bytes)

/-- The commands of a construction, in order (44_radio_handshake.md R260, R272). -/
def constructionCommands (c : Config) (ch : Byte) (props : List PropRecord) : List (List Byte) :=
  [c.opcPowerUp.bytes ++ c.argsPowerUp, c.opcGpioCfg.bytes ++ c.argsGpioCfg] ++ props.map (propertyBytes c)
    ++ c.intOverrides.map (propertyBytes c) ++ [c.opcStartRx.bytes ++ Config.argsStartRx ch]

/-- The rows of SEQ_CONS that are one radio step: the command, the step that E_HANDSHAKE names, and the next row (44_radio_handshake.md R260). -/
def consRow (s : State) : Option (List Byte × HandshakeStep × ConsSeq) :=
  match s.radio.seqCons with
  | .s3PowerUp => some (s.cfg.opcPowerUp.bytes ++ s.cfg.argsPowerUp, .powerUp, .s4Gpio)
  | .s4Gpio => some (s.cfg.opcGpioCfg.bytes ++ s.cfg.argsGpioCfg, .gpio, .s5Prop 0)
  | .s5Prop i =>
    match s.radio.props[i]? with
    | some p => some (propertyBytes s.cfg p, .prop i, if i < 30 then .s5Prop (i + 1) else .s6Int 0)
    | none => none
  | .s6Int i =>
    match s.cfg.intOverrides[i]? with
    | some q => some (propertyBytes s.cfg q, .int, if i + 1 < s.cfg.intOverrides.length then .s6Int (i + 1) else .s7Irq)
    | none => none
  | .s8Rx => some (s.cfg.opcStartRx.bytes ++ Config.argsStartRx s.radio.channel, .rx, .s9Start)
  | .s0Guard | .s1Parse | .s2Reset _ | .s7Irq | .s9Start | .done | .failed => none

/-- SPI_LOG is a sequence of whole blocks: no command without its status reads, and nothing between them (70_reset_and_hazards.md R361, R362). -/
def Handshaken (c : Config) (log : List (List Byte × List Byte)) : Prop :=
  ∃ blocks : List (List Byte × Nat × List (List Byte)),
    log = (blocks.map (fun b => stepLog c b.1 b.2.2)).flatten ∧ ∀ b ∈ blocks, PollReads c b.2.1 b.2.2

/-! ### Invariants -/

/-- Every operation in progress has its own ticket, below the counter. -/
def TicketInv (s : State) : Prop :=
  (s.ops.map Prod.fst).Nodup ∧ ∀ e ∈ s.ops, e.1 < s.nextTicket

/-- The scanner of a controller: RXBUF is what R42 says, the byte-serial registers agree with it (41_framer.md R182), and no queued payload is longer than 255 bytes (10_state.md R43). -/
def Uart.ScanInv (u : Uart) : Prop :=
  ScanAgrees u.rxBuf u.scanRegs ∧ ∀ p ∈ u.rxq, p.length ≤ 255

/-- The scanners of all controllers. -/
def ScannerInv (s : State) : Prop := ∀ u ∈ s.uarts, u.ScanInv

/-- The configuration registers of a constructed controller hold legal values (10_state.md R38). -/
def Uart.ConfigLegal (u : Uart) : Prop :=
  match u.mode with
  | .framed => 1 ≤ u.baud ∧ u.databits = 8 ∧ u.stopbits = 1 ∧ u.parity = .n
  | .raw => (1200 ≤ u.baud ∧ u.baud ≤ 2000000) ∧ (5 ≤ u.databits ∧ u.databits ≤ 9) ∧ (1 ≤ u.stopbits ∧ u.stopbits ≤ 2)

/-- Every constructed controller is legally configured, and TXLOCK and RXLOCK are taken and freed within one step (43_uart_raw.md R223, R224). -/
def UartConfigInv (s : State) : Prop :=
  ∀ u ∈ s.uarts, (u.lc ≠ .unconstructed → u.ConfigLegal) ∧ u.txLock = .free ∧ u.rxLock = .free

/-- A controller whose shutdown is over: the lifecycle is SHUT, the UART closed, the lines released, and UR_TX stopped or about to stop (42_uart_framed.md R199, R200; 43_uart_raw.md R227). -/
def Uart.Terminated (u : Uart) : Prop :=
  u.lc = .shut ∧ u.uartOpen = false ∧ u.dir = .released
  ∧ (u.seqUrTx = .stopped ∨ (u.seqUrTx = .wait ∧ u.shutReq = true))

/-- One controller's line: every byte was put on the bus with DIR = TX (70_reset_and_hazards.md R360), DIR = RX is the resting state (10_state.md R41), and DIR = TX only inside a transmit sequence. -/
def LineOk (s : State) (i : Nat) (u : Uart) : Prop :=
  (∀ e ∈ u.lineOut, e.2 = .tx)
  ∧ (u.lc = .unconstructed → u.dir = .released ∧ u.seqUrTx = .stopped ∧ u.uartOpen = false)
  ∧ (u.lc = .running → u.uartOpen = true ∧ u.dir ≠ .released)
  ∧ (u.seqUrTx ≠ .stopped → u.mode = .raw)
  ∧ (u.seqUrTx = .writing ∨ u.seqUrTx = .txOff → u.dir = .tx)
  ∧ (u.dir = .tx → u.seqUrTx = .writing ∨ u.seqUrTx = .txOff
      ∨ ∃ t f q, (t, HostOp.send i f q) ∈ s.ops ∧ q.transmitting = true)

/-- An operation in progress and the controller it works on: a send holds SENDLOCK and DIR = TX while it transmits, a shutdown has closed the lifecycle, and no batch is in progress when a raw controller closes. -/
def OpOk (s : State) (t : Nat) : HostOp → Prop
  | .send i _ q => ∃ u, s.uarts[i]? = some u ∧ u.lc = .running ∧ u.mode = .framed
      ∧ (q.locked = true → u.sendLock = .held (.host t)) ∧ (q.transmitting = true → u.dir = .tx)
  | .ufShutdown i _ => ∃ u, s.uarts[i]? = some u ∧ u.lc = .shut ∧ u.mode = .framed
  | .urShutdown i st => ∃ u, s.uarts[i]? = some u ∧ u.lc = .shut ∧ u.mode = .raw
      ∧ (st = .join ∨ st = .close → u.shutReq = true) ∧ (st = .close → u.batchInProgress = false)
  | _ => True

/-- The serial lines of all controllers and the operations on them. -/
def LineInv (s : State) : Prop :=
  TicketInv s ∧ (∀ i u, s.uarts[i]? = some u → LineOk s i u) ∧ ∀ t op, (t, op) ∈ s.ops → OpOk s t op

/-- `RD.CONSTRUCT` or `RD.SHUTDOWN` in progress. -/
def HostOp.isRadioLife : HostOp → Bool
  | .rdConstruct _ _ | .rdShutdown _ => true
  | _ => false

/-- The rows of a construction in which S7 has not yet set IRQ_EN (44_radio_handshake.md R260, R267). -/
def ConsSeq.beforeIrq : ConsSeq → Bool
  | .s1Parse | .s2Reset _ | .s3PowerUp | .s4Gpio | .s5Prop _ | .s6Int _ | .s7Irq => true
  | .s0Guard | .s8Rx | .s9Start | .done | .failed => false

/-- The singleton radio: at most one construction or shutdown is in progress; the guard is taken while the radio is being constructed, runs, has failed or is shutting down (44_radio_handshake.md R261); SPILOCK is held between rows only by a shutdown about to close the port (45_radio_txrx.md R291); IRQ_EN = 0 while the guard is free, in the rows of a construction before S7 (R267), and once a shutdown has closed the port. -/
def GuardInv (s : State) : Prop :=
  TicketInv s
  ∧ (s.ops.filter (fun e => e.2.isRadioLife)).length ≤ 1
  ∧ (∀ t ch ps, (t, HostOp.rdConstruct ch ps) ∈ s.ops → s.radio.lc = .constructing)
  ∧ (∀ t st, (t, HostOp.rdShutdown st) ∈ s.ops → s.radio.lc = .shut ∧ s.radio.alloc = true)
  ∧ (s.radio.lc = .constructing ∨ s.radio.lc = .running ∨ s.radio.lc = .failed → s.radio.alloc = true)
  ∧ (s.radio.spiLock = .free ∨ ∃ t, s.radio.spiLock = .held (.host t) ∧ (t, HostOp.rdShutdown .close) ∈ s.ops)
  ∧ (s.radio.alloc = false ∨ s.radio.seqCons.beforeIrq = true ∨ (∃ t, (t, HostOp.rdShutdown .finish) ∈ s.ops) →
      s.radio.irqEn = false)

/-- The radio's data: every packet queued or in the batch has 1 to 64 bytes (10_state.md R63), every received packet at most 65,535 (R64), the property table has 31 records (R62), and TXQLOCK, RXLLOCK and SEQ_POLL are at rest between rows (45_radio_txrx.md R283, R287; 44_radio_handshake.md R246). -/
def RadioDataInv (s : State) : Prop :=
  (∀ p ∈ s.radio.txq, 1 ≤ p.length ∧ p.length ≤ 64)
  ∧ (∀ p ∈ s.radio.txBatchR, 1 ≤ p.length ∧ p.length ≤ 64)
  ∧ (∀ t ps, (t, HostOp.rdTransmit ps) ∈ s.ops → ∀ p ∈ ps, 1 ≤ p.length ∧ p.length ≤ 64)
  ∧ (∀ p ∈ s.radio.rxList, p.length ≤ 65535)
  ∧ (∀ n, s.radio.seqRdIrq = .data n → n ≤ 65535)
  ∧ (∀ d, s.radio.seqRdIrq = .store d → d.length ≤ 65535)
  ∧ s.radio.props.length = 31
  ∧ s.radio.txqLock = .free ∧ s.radio.rxlLock = .free ∧ s.radio.seqPoll = .idle

/-- SPI_LOG is made of whole blocks. -/
def HandshakeInv (s : State) : Prop := Handshaken s.cfg s.radio.spiLog

/-- A radio whose construction failed, with nothing in progress that could end its shutdown (44_radio_handshake.md R270). -/
def FailedInv (s : State) : Prop :=
  s.radio.lc = .failed ∧ s.radio.alloc = true ∧ s.radio.seqCons = .failed
  ∧ ∀ t st, (t, HostOp.rdShutdown st) ∉ s.ops

/-- The UART instance that a stimulus can change, if any. -/
def Stimulus.touches (s : State) : Stimulus → Option Nat
  | .issue w =>
    match decodeHost w with
    | .ok (.ufConstruct i _) => some i.toNat
    | .ok (.ufReadFrame i _) => some i.toNat
    | .ok (.ufShutdown i) => some i.toNat
    | .ok (.urConstruct i _ _ _ _) => some i.toNat
    | .ok (.urWrite i _) => some i.toNat
    | .ok (.urRead i) => some i.toNat
    | .ok (.urShutdown i) => some i.toNat
    | _ => none
  | .resume t _ =>
    match s.findOp t with
    | some (.send i _ _) => some i
    | some (.readFrame i _) => some i
    | some (.ufShutdown i _) => some i
    | some (.urWrite i _) => some i
    | some (.urRead i) => some i
    | some (.urShutdown i _) => some i
    | _ => none
  | .agent (.ufRx i) => some i.toNat
  | .agent (.urTx i) => some i.toNat
  | .agent (.urRx i) => some i.toNat
  | .agent _ => none
  | .line i _ => some i.toNat
  | .lineError i => some i.toNat
  | .irq _ => none
  | .hardReset => none

end Sys2Proof.Machine
end

