-- ==== Sys2Proof/Certificates/Slice0/Obligations.lean ====
section
/-! DEFINITION. The statements about the model, for the provers. -/

open Sys2Proof Sys2Proof.Machine

/-! ### The CRC unit (40_crc.md) -/

/-- R151 to R154: the words and the effects of the four operations, with the eight shift steps of R152 written out. -/
def Obligations.CrcOperations : Prop :=
  let shift : Word16 → Word16 := fun c => if c.getLsbD 0 then (c >>> 1) ^^^ 0xA001 else c >>> 1
  let update : Word16 → Byte → Word16 := fun c b => shift^[8] (c ^^^ b.setWidth 16)
  ∀ (s : State) (b : Byte) (bs : List Byte),
    exec .crcInit s = .next ((s.setCrc 0xFFFF).answered (.ok .none))
    ∧ exec (.crcUpdate b) s = .next ((s.setCrc (update s.crc b)).answered (.ok .none))
    ∧ exec .crcRead s = .next (s.answered (.ok (.u16 s.crc)))
    ∧ exec (.crcSum bs) s = .next (s.answered (.ok (.u16 (bs.foldl update 0xFFFF))))
    ∧ decodeHost [0x01, 0x00] = .ok .crcInit ∧ decodeHost [0x02, 0x00, b] = .ok (.crcUpdate b)
    ∧ decodeHost [0x03, 0x00] = .ok .crcRead
    ∧ (bs.length < 65536 → decodeHost (0x04 :: 0x00 :: bytesOperand bs) = .ok (.crcSum bs))

/-- R155: eight bit-serial steps, bit 0 of the byte first, equal one `CRC.UPDATE`. -/
def Obligations.CrcBitSerial : Prop :=
  ∀ (c : Word16) (b : Byte),
    (List.range 8).foldl
      (fun (c : Word16) k => if c.getLsbD 0 ^^ b.getLsbD k then (c >>> 1) ^^^ 0xA001 else c >>> 1) c
    = crcUpdate c b

/-- R157: the residue of a sequence with its own checksum is 0, and a span of the right length is good exactly when its sum is 0. -/
def Obligations.CrcResidue : Prop :=
  (∀ m : List Byte, crcSum (m ++ [(crcSum m).extractLsb' 0 8, (crcSum m).extractLsb' 8 8]) = 0)
  ∧ ∀ (n : Byte) (rest : List Byte), rest.length = n.toNat + 2 →
      ((parseSpan (n :: rest)).isSome ↔ crcSum (n :: rest) = 0)

/-- R158: `update` is injective in the register and in the byte; a flipped bit in the checksum bytes of a built frame makes the parser reject, and a flipped bit anywhere in a body changes its checksum. -/
def Obligations.CrcSingleBit : Prop :=
  (∀ (b : Byte) (c c' : Word16), crcUpdate c b = crcUpdate c' b → c = c')
  ∧ (∀ (c : Word16) (b b' : Byte), crcUpdate c b = crcUpdate c b' → b = b')
  ∧ (∀ (p : List Byte) (k : Nat), p.length ≤ 255 → k < 16 →
      parseSpan (frameBody p ++ crcTrailer (crcSum (frameBody p) ^^^ (1 <<< k))) = none)
  ∧ ∀ (pre post : List Byte) (b : Byte) (k : Nat), k < 8 →
      crcSum (pre ++ (b ^^^ (1 <<< k)) :: post) ≠ crcSum (pre ++ b :: post)

/-- R31: CRC is written by nothing but `CRC.INIT`, `CRC.UPDATE` and hardware reset, and no step changes the parameters. -/
def Obligations.CrcRegisterOwnership : Prop :=
  ∀ s t : State, step s = .next t →
    t.cfg = s.cfg
    ∧ (t.crc = s.crc
      ∨ (∃ w rest, s.script = .issue w :: rest
          ∧ (decodeHost w = .ok .crcInit ∨ ∃ b, decodeHost w = .ok (.crcUpdate b)))
      ∨ ∃ rest, s.script = .hardReset :: rest)

/-! ### The framer (41_framer.md) -/

/-- R171: the frame of a payload, byte by byte; more than 255 bytes is E_SIZE and nothing is produced. -/
def Obligations.FrameBuild : Prop :=
  ∀ (s : State) (p : List Byte),
    (p.length ≤ 255 →
      let body := BitVec.ofNat 8 p.length :: p
      exec (.frmBuild p) s = .next (s.answered (.ok (.bytes
        (0x7E :: (body ++ [(crcSum body).extractLsb' 0 8, (crcSum body).extractLsb' 8 8]))))))
    ∧ (255 < p.length → exec (.frmBuild p) s = .next (s.answered (.error (.size 0 p.length))))
    ∧ (p.length < 65536 → decodeHost (0x10 :: 0x00 :: bytesOperand p) = .ok (.frmBuild p))

/-- R174, R175: a span whose length its first byte gives is accepted exactly when the checksum agrees; every other input is rejected, as a result. -/
def Obligations.FrameParse : Prop :=
  ∀ s : State,
    (∀ (n : Byte) (p : List Byte) (lo hi : Byte), p.length = n.toNat →
      exec (.frmParse (n :: (p ++ [lo, hi]))) s = .next (s.answered (.ok (.opt
        (if crcSum (n :: p) = hi ++ lo then some p else none)))))
    ∧ (∀ bs : List Byte, (∀ n rest, bs = n :: rest → rest.length ≠ n.toNat + 2) →
      exec (.frmParse bs) s = .next (s.answered (.ok (.opt none))))
    ∧ ∀ bs : List Byte, bs.length < 65536 → decodeHost (0x11 :: 0x00 :: bytesOperand bs) = .ok (.frmParse bs)

/-- R173: `FRM.BUILD` answers a frame four bytes longer than the payload, and `FRM.PARSE` of what follows its marker answers the payload. -/
def Obligations.FrameRoundTrip : Prop :=
  ∀ (s : State) (p : List Byte), p.length ≤ 255 →
    ∃ f : List Byte, f.length = p.length + 4
      ∧ exec (.frmBuild p) s = .next (s.answered (.ok (.bytes f)))
      ∧ ∀ s' : State, exec (.frmParse (f.drop 1)) s' = .next (s'.answered (.ok (.opt (some p))))

/-- R182: for every received stream, cut into chunks in any way, the buffer form and the byte-serial form deliver the same payloads in the same order, and correspond again afterwards. -/
def Obligations.ScannerFormsAgree : Prop :=
  ∀ (buf : List Byte) (r : ScanRegs), ScanAgrees buf r → ∀ chunks : List (List Byte),
    (scanChunks buf chunks).out = (scanBytes r chunks.flatten).2
    ∧ ScanAgrees (scanChunks buf chunks).buf (scanBytes r chunks.flatten).1

/-- R183: what `SCAN` delivers and keeps depends on the stream alone, not on how it is cut; in particular one iteration of UF_RX over two pieces leaves what two iterations leave. -/
def Obligations.ChunkingIrrelevant : Prop :=
  (∀ cs cs' : List (List Byte), cs.flatten = cs'.flatten → scanChunks [] cs = scanChunks [] cs')
  ∧ ∀ (u : Uart) (a b : List Byte),
      { u with rxAvail := a ++ b }.receive = { { u with rxAvail := a }.receive with rxAvail := b }.receive

/-- R185, with the premise the rule adds: garbage without a marker, a frame and a piece of the next frame give exactly the one payload; the piece is kept and completed later. A buffer without a marker is dropped whole. -/
def Obligations.GarbageFramePartial : Prop :=
  (∀ g p p' q rest : List Byte, sof ∉ g → p.length ≤ 255 → p'.length ≤ 255 → rest ≠ [] →
      q ++ rest = buildFrame p' →
      scan (g ++ buildFrame p ++ q) = ⟨q, [p]⟩ ∧ scan (q ++ rest) = ⟨[], [p']⟩)
  ∧ ∀ g : List Byte, sof ∉ g → scan g = ⟨[], []⟩

/-- R186 with R42: after a completed scan the buffer is empty, or begins with a marker, is shorter than the frame it begins, and has at most 258 bytes; every payload delivered has at most 255. -/
def Obligations.ScanBufferBound : Prop :=
  ∀ buf : List Byte,
    ((scan buf).buf = []
      ∨ ((scan buf).buf.head? = some sof ∧ (scan buf).buf.length ≤ 258
        ∧ ∀ n q, (scan buf).buf = sof :: n :: q → (scan buf).buf.length < 1 + 1 + n.toNat + 2))
    ∧ ∀ p ∈ (scan buf).out, p.length ≤ 255

/-! ### Encoding and the step -/

/-- Every well-formed host operation decodes from its own word, whatever the parameters and whatever follows it; and a word that decodes is the one encoding of a well-formed host operation (30_encoding.md R130, R131, R135). The second half holds because the model refuses bytes after the operand field, which is its own reading of the rules (log entry 18, DEDUCED). -/
def Obligations.HostWordRoundTrip : Prop :=
  (∀ (c : Config) (i : Instr), i.wf → i.isHost →
    decodeHost (encode c i) = .ok i ∧ ∀ rest, decodePrefix (encode c i ++ rest) = .ok (i, rest))
  ∧ ∀ (c : Config) (w : List Byte) (i : Instr), decodeHost w = .ok i → i.wf ∧ i.isHost ∧ encode c i = w

/-- A frame on the line and the radio length, both ways (30_encoding.md R111, R113, R128). -/
def Obligations.LineRoundTrip : Prop :=
  ∀ (c : Config) (inst : Byte),
    (∀ (p : List Byte) (lo hi : Byte), p.length ≤ 255 →
      decodeLine inst (encode c (.frame inst p lo hi)) = .ok (.frame inst p lo hi)
      ∧ (encode c (.frame inst p lo hi)).length = p.length + 4)
    ∧ (∀ (w : List Byte) (i : Instr), decodeLine inst w = .ok i →
        ∃ p lo hi, i = .frame inst p lo hi ∧ p.length ≤ 255 ∧ w = 0x7E :: BitVec.ofNat 8 p.length :: (p ++ [lo, hi]))
    ∧ ∀ hi lo : Byte, decodeRxLen (encode c (.rxlen hi lo)) = .ok (.rxlen hi lo)
        ∧ rxLenValue hi lo = 256 * hi.toNat + lo.toNat

/-- Words of the table of R131, written out byte by byte. -/
def Obligations.SpecWordsDecode : Prop :=
  decodeHost [0x01, 0x00] = .ok .crcInit
  ∧ decodeHost [0x02, 0x00, 0x41] = .ok (.crcUpdate 0x41)
  ∧ decodeHost [0x10, 0x00, 0x00, 0x02, 0x41, 0x42] = .ok (.frmBuild [0x41, 0x42])
  ∧ decodeHost [0x20, 0x01, 0x00, 0x01, 0xC2, 0x00] = .ok (.ufConstruct 1 115200)
  ∧ decodeHost [0x22, 0x00, 0x01, 0x00, 0x00, 0x00, 0x05] = .ok (.ufReadFrame 0 (some 5))
  ∧ decodeHost [0x30, 0x01, 0x00, 0x00, 0x25, 0x80, 0x08, 0x01, 0x4E] = .ok (.urConstruct 1 9600 8 1 0x4E)
  ∧ decodeHost [0x41, 0x00, 0x00, 0x02, 0x00, 0x01, 0xAA, 0x00, 0x00] = .ok (.rdTransmit [[0xAA], []])
  ∧ decodeHost [0x43, 0x00] = .ok .rdShutdown
  ∧ decodeLine 0 [0x7E, 0x02, 0x41, 0x42, 0x60, 0x61] = .ok (.frame 0 [0x41, 0x42] 0x60 0x61)

/-- A step runs the decoded word, the agent's instruction, the frame on the line, or the next row of the operation it resumes, on the state without that entry of the script; the script is the model's own (log entry 1). -/
def Obligations.StepRunsInstruction : Prop :=
  ∀ (s : State) (rest : List Stimulus),
    (∀ w i, s.script = .issue w :: rest → decodeHost w = .ok i → step s = exec i { s with script := rest })
    ∧ (∀ a, s.script = .agent a :: rest → step s = exec a.instr { s with script := rest })
    ∧ (∀ inst w i, s.script = .line inst w :: rest → decodeLine inst w = .ok i →
        step s = exec i { s with script := rest })
    ∧ (∀ t b, s.script = .resume t b :: rest → step s = resume t b { s with script := rest })
    ∧ (s.script = [] → step s = .next s)

/-- R318: a malformed word, and an instance that does not exist, are answered with E_ILLEGAL, and nothing else changes. -/
def Obligations.IllegalWord : Prop :=
  (∀ (s : State) (w : List Byte) (rest : List Stimulus) (e : DecodeError),
    s.script = .issue w :: rest → decodeHost w = .error e →
    step s = .next ({ s with script := rest }.answered (.error .illegal)))
  ∧ (∀ (code inst : Byte) (w : List Byte),
      code ∉ [0x01, 0x02, 0x03, 0x04, 0x10, 0x11, 0x20, 0x21, 0x22, 0x23, 0x30, 0x31, 0x32, 0x33,
        0x40, 0x41, 0x42, 0x43] → ∃ e, decodeHost (code :: inst :: w) = .error e)
  ∧ (∀ (code inst : Byte) (w : List Byte),
      code ∈ [0x01, 0x02, 0x03, 0x04, 0x10, 0x11, 0x40, 0x41, 0x42, 0x43] → inst ≠ 0 →
      ∃ e, decodeHost (code :: inst :: w) = .error e)
  ∧ ∀ (s : State) (inst : Byte), s.uarts.length ≤ inst.toNat →
      ∀ i : Instr, ((∃ b, i = .ufConstruct inst b) ∨ (∃ p, i = .ufSend inst p) ∨ (∃ t, i = .ufReadFrame inst t)
        ∨ i = .ufShutdown inst ∨ (∃ b d st p, i = .urConstruct inst b d st p) ∨ (∃ d, i = .urWrite inst d)
        ∨ i = .urRead inst ∨ i = .urShutdown inst) →
      exec i s = .next (s.answered (.error .illegal))

/-- R311: the bytes of every error response; and 30_encoding.md R130, R131: those of every `OK` response whose counts fit their `U16` fields. -/
def Obligations.ErrorResponseBytes : Prop :=
  (∀ i n : Nat, i < 65536 → n < 4294967296 →
    responseBytes (.error (.size i n)) =
      some ([0x01, BitVec.ofNat 8 (i / 256), BitVec.ofNat 8 i]
        ++ [BitVec.ofNat 8 (n / 16777216), BitVec.ofNat 8 (n / 65536), BitVec.ofNat 8 (n / 256), BitVec.ofNat 8 n]))
  ∧ responseBytes (.error (.config .baud)) = some [0x02, 1]
  ∧ responseBytes (.error (.config .databits)) = some [0x02, 2]
  ∧ responseBytes (.error (.config .stopbits)) = some [0x02, 3]
  ∧ responseBytes (.error (.config .parity)) = some [0x02, 4]
  ∧ responseBytes (.error (.config .channel)) = some [0x02, 5]
  ∧ (∀ n : Nat, n < 65536 → responseBytes (.error (.config (.properties n))) =
      some [0x02, 6, BitVec.ofNat 8 (n / 256), BitVec.ofNat 8 n])
  ∧ responseBytes (.error (.handshake .powerUp)) = some [0x03, 3]
  ∧ responseBytes (.error (.handshake .gpio)) = some [0x03, 4]
  ∧ (∀ i : Nat, i ≤ 30 → responseBytes (.error (.handshake (.prop i))) = some [0x03, 5, BitVec.ofNat 8 i])
  ∧ responseBytes (.error (.handshake .int)) = some [0x03, 6]
  ∧ responseBytes (.error (.handshake .rx)) = some [0x03, 8]
  ∧ responseBytes (.error (.state .unconstructed)) = some [0x04, 0]
  ∧ responseBytes (.error (.state .constructing)) = some [0x04, 1]
  ∧ responseBytes (.error (.state .running)) = some [0x04, 2]
  ∧ responseBytes (.error (.state .failed)) = some [0x04, 3]
  ∧ responseBytes (.error (.state .shut)) = some [0x04, 4]
  ∧ responseBytes (.error .illegal) = some [0x05]
  ∧ responseBytes (.ok .none) = some [0x00]
  ∧ (∀ w : Word16, responseBytes (.ok (.u16 w)) = some [0x00, w.extractLsb' 8 8, w.extractLsb' 0 8])
  ∧ (∀ b : List Byte, b.length < 65536 → responseBytes (.ok (.bytes b)) = some (0x00 :: bytesOperand b))
  ∧ responseBytes (.ok (.opt none)) = some [0x00, 0x00]
  ∧ (∀ b : List Byte, b.length < 65536 → responseBytes (.ok (.opt (some b))) = some (0x00 :: 0x01 :: bytesOperand b))
  ∧ ∀ l : List (List Byte), l.length < 65536 → (∀ b ∈ l, b.length < 65536) →
      responseBytes (.ok (.list l)) =
        some (0x00 :: BitVec.ofNat 8 (l.length / 256) :: BitVec.ofNat 8 l.length :: l.flatMap bytesOperand)

/-! ### The framed UART controller (42_uart_framed.md) -/

/-- R190: `UF.CONSTRUCT`, its two checks and every register it writes. -/
def Obligations.UfConstruct : Prop :=
  ∀ (s : State) (inst : Byte) (baud : Word32) (u : Uart), s.uarts[inst.toNat]? = some u →
    (u.lc ≠ .unconstructed →
      exec (.ufConstruct inst baud) s = .next (s.answered (.error (.state u.lc.asLc))))
    ∧ (u.lc = .unconstructed → baud = 0 →
      exec (.ufConstruct inst baud) s = .next (s.answered (.error (.config .baud))))
    ∧ (u.lc = .unconstructed → baud ≠ 0 →
      exec (.ufConstruct inst baud) s = .next ((s.setUart inst.toNat { u with
        mode := .framed, baud := baud.toNat, databits := 8, stopbits := 1, parity := .n
        uartOpen := true, dir := .rx, rxBuf := [], rxq := [], seqScan := .hunt
        run := true, seqUfRx := .running, lc := .running }).answered (.ok .none)))
    ∧ ∀ a b c d : Byte, decodeHost [0x20, inst, a, b, c, d] = .ok (.ufConstruct inst (a ++ b ++ c ++ d))

/-- R191 with the rows of R192: `UF.SEND` checks the lifecycle, then the size; an accepted one puts the frame on the line with DIR = TX throughout and DIR = RX after, frees SENDLOCK and returns OK after |p| + 10 rows when nothing else runs. That with ECHO_IN_TX (R195) the receiver hears each byte as it is sent is the model's reading (log entry 15, DEDUCED), and the number of rows its granularity (log entry 12, DEDUCED). -/
def Obligations.UfSendRuns : Prop :=
  ∀ (s : State) (inst : Byte) (p : List Byte) (u : Uart), s.uarts[inst.toNat]? = some u →
    (u.lc ≠ .running → exec (.ufSend inst p) s = .next (s.answered (.error (.state u.lc.asLc))))
    ∧ (p.length < 65536 → decodeHost (0x21 :: inst :: bytesOperand p) = .ok (.ufSend inst p))
    ∧ (u.lc = .running → u.mode = .framed → 255 < p.length →
      exec (.ufSend inst p) s = .next (s.answered (.error (.size 0 p.length))))
    ∧ (u.lc = .running → u.mode = .framed → p.length ≤ 255 →
      exec (.ufSend inst p) s = .next (s.issued (.send inst.toNat (buildFrame p) .waitLock)))
    ∧ (u.lc = .running → u.mode = .framed → p.length ≤ 255 → u.uartOpen = true → u.sendLock = .free →
      s.FreshTicket →
      resumeMany (p.length + 10) s.nextTicket false (s.issued (.send inst.toNat (buildFrame p) .waitLock))
        = .next ((s.setUart inst.toNat { u with
            dir := .rx
            lineOut := u.lineOut ++ (buildFrame p).map (fun b => (b, Dir.tx))
            rxAvail := u.rxAvail ++ (if s.cfg.echoInTx then buildFrame p else [])
            lineIn := u.lineIn ++ (if s.cfg.echoInTx then buildFrame p else []) }).answered (.ok .none)))

/-- R192: the rows of SEQ_SEND, the row IDLE as the operation is issued, each later one as one step of the operation; at WAIT_LOCK with SENDLOCK taken the operation is held (R194). Row WRITE(k) also lets the receiver hear the byte under ECHO_IN_TX (R195 as log entry 15 reads it, DEDUCED), and row FLUSH is enabled at once (log entry 12, DEDUCED). -/
def Obligations.SendRows : Prop :=
  (∀ (s : State) (inst : Byte) (p : List Byte) (u : Uart), s.uarts[inst.toNat]? = some u →
    exec (.ufSend inst p) s = .next (
      if u.lc = .running ∧ u.mode = .framed then
        if p.length ≤ 255 then s.issued (.send inst.toNat (buildFrame p) .waitLock)
        else s.answered (.error (.size 0 p.length))
      else s.answered (.error (.state u.lc.asLc))))
  ∧ ∀ (s : State) (t i : Nat) (b : Bool) (f : List Byte) (q : SendSeq) (u : Uart),
    s.findOp t = some (.send i f q) → s.uarts[i]? = some u →
    (q = .waitLock → u.sendLock = .free → resume t b s =
      .next ((s.setUart i { u with sendLock := .held (.host t) }).setOp t (.send i f .toTx)))
    ∧ (q = .waitLock → u.sendLock ≠ .free → resume t b s = .next s)
    ∧ (q = .toTx → resume t b s = .next ((s.setUart i { u with dir := .tx }).setOp t (.send i f (.write 0))))
    ∧ (∀ k x, q = .write k → f[k]? = some x → u.uartOpen = true → u.dir = .tx →
        resume t b s = .next ((s.setUart i { u with
          lineOut := u.lineOut ++ [(x, .tx)]
          rxAvail := u.rxAvail ++ (if s.cfg.echoInTx then [x] else [])
          lineIn := u.lineIn ++ (if s.cfg.echoInTx then [x] else []) }).setOp t
            (.send i f (if k = f.length - 1 then .flush else .write (k + 1)))))
    ∧ (q = .flush → resume t b s = .next (s.setOp t (.send i f .hold)))
    ∧ (q = .hold → resume t b s = .next (s.setOp t (.send i f .toRx)))
    ∧ (q = .toRx → resume t b s = .next ((s.setUart i { u with dir := .rx }).setOp t (.send i f .done)))
    ∧ (q = .done → resume t b s = .next ((s.setUart i { u with sendLock := .free }).ended t (.ok .none)))

/-- R198: `UF.READ_FRAME` pops the oldest payload; with RXQ empty a timeout of 0 gives NOTHING, and otherwise the operation waits; a waiting one pops as soon as there is a frame, and only one with a timeout can end with NOTHING. That the first test is made as the operation is issued is log entry 12 (DEDUCED); that a reader waiting across a shutdown still gets a payload that RXQ holds is the model's choice (log entry 27, DESIGN CHOICE). -/
def Obligations.UfReadFrame : Prop :=
  (∀ (s : State) (inst : Byte) (timeout : Option Word32) (u : Uart), s.uarts[inst.toNat]? = some u →
    (u.lc ≠ .running → exec (.ufReadFrame inst timeout) s = .next (s.answered (.error (.state u.lc.asLc))))
    ∧ (∀ p rest, u.lc = .running → u.mode = .framed → u.rxq = p :: rest →
        exec (.ufReadFrame inst timeout) s =
          .next ((s.setUart inst.toNat { u with rxq := rest }).answered (.ok (.opt (some p)))))
    ∧ (u.lc = .running → u.mode = .framed → u.rxq = [] →
        exec (.ufReadFrame inst timeout) s = .next (
          if timeout = some 0 then s.answered (.ok (.opt none))
          else s.issued (.readFrame inst.toNat timeout.isSome)))
    ∧ decodeHost [0x22, inst, 0x00] = .ok (.ufReadFrame inst none)
    ∧ ∀ a b c d : Byte, decodeHost [0x22, inst, 0x01, a, b, c, d] = .ok (.ufReadFrame inst (some (a ++ b ++ c ++ d))))
  ∧ ∀ (s : State) (t i : Nat) (bounded b : Bool) (u : Uart),
      s.findOp t = some (.readFrame i bounded) → s.uarts[i]? = some u →
      (∀ p rest, u.rxq = p :: rest → resume t b s =
        .next ((s.setUart i { u with rxq := rest }).ended t (.ok (.opt (some p)))))
      ∧ (u.rxq = [] → bounded = true → b = true → resume t b s = .next (s.ended t (.ok (.opt none))))
      ∧ (u.rxq = [] → bounded = false ∨ b = false → resume t b s = .next s)

/-- R199: the rows of `UF.SHUTDOWN`: LC and RUN are cleared in one step, the join waits for the receiver or its timeout, then the UART is closed, then the lines are released; and its runs: the operation ends the same way whether the receiver had stopped, stops in time, or the wait times out. That RXBUF and RXQ are kept is the model's choice where the rule allows both (log entry 27, DESIGN CHOICE). -/
def Obligations.UfShutdownRuns : Prop :=
  (∀ (s : State) (inst : Byte) (u : Uart), s.uarts[inst.toNat]? = some u → u.mode = .framed →
    s.shutdownInProgress inst.toNat = false →
    (u.lc ≠ .running → exec (.ufShutdown inst) s = .next (s.answered (.error (.state u.lc.asLc))))
    ∧ decodeHost [0x23, inst] = .ok (.ufShutdown inst)
    ∧ (u.lc = .running → s.sendInProgress inst.toNat = false →
      exec (.ufShutdown inst) s =
        .next ((s.setUart inst.toNat { u with lc := .shut, run := false }).issued (.ufShutdown inst.toNat .join)))
    ∧ (∀ b, u.lc = .running → s.sendInProgress inst.toNat = false → s.FreshTicket → u.seqUfRx = .stopped ∨ b = true →
      performMany ([.issue [0x23, inst]] ++ List.replicate 3 (.resume s.nextTicket b)) s
        = .next ((s.setUart inst.toNat { u with
            lc := .shut, run := false, uartOpen := false, dir := .released }).answered (.ok .none)))
    ∧ (u.lc = .running → s.sendInProgress inst.toNat = false → s.FreshTicket → u.seqUfRx = .running →
      performMany ([.issue [0x23, inst], .resume s.nextTicket false, .agent (.ufRx inst)]
          ++ List.replicate 3 (.resume s.nextTicket false)) s
        = .next ((s.setUart inst.toNat { u with
            lc := .shut, run := false, seqUfRx := .stopped, uartOpen := false, dir := .released }).answered (.ok .none))))
  ∧ ∀ (s : State) (t i : Nat) (b : Bool) (u : Uart), s.uarts[i]? = some u →
      (s.findOp t = some (.ufShutdown i .join) → u.seqUfRx = .stopped ∨ b = true →
        resume t b s = .next (s.setOp t (.ufShutdown i .close)))
      ∧ (s.findOp t = some (.ufShutdown i .join) → u.seqUfRx ≠ .stopped → b = false → resume t b s = .next s)
      ∧ (s.findOp t = some (.ufShutdown i .close) →
        resume t b s = .next ((s.setUart i { u with uartOpen := false }).setOp t (.ufShutdown i .release)))
      ∧ (s.findOp t = some (.ufShutdown i .release) →
        resume t b s = .next ((s.setUart i { u with dir := .released }).ended t (.ok .none)))

/-- R200, R326, R315: on a controller that is not RUNNING in its own mode every operation but CONSTRUCT answers E_STATE with the LC found and changes nothing; so does CONSTRUCT on one that is RUNNING or SHUT. That a shutdown of the other mode gets E_STATE even while a shutdown is in progress, against the words of 93 U2, is the model's reading of R326 (log entry 41, DEDUCED). -/
def Obligations.UartStateErrors : Prop :=
  ∀ (s : State) (inst : Byte) (u : Uart), s.uarts[inst.toNat]? = some u →
    (u.lc ≠ .running ∨ u.mode ≠ .framed →
      (∀ p, exec (.ufSend inst p) s = .next (s.answered (.error (.state u.lc.asLc))))
      ∧ (∀ timeout, exec (.ufReadFrame inst timeout) s = .next (s.answered (.error (.state u.lc.asLc))))
      ∧ (s.shutdownInProgress inst.toNat = false ∨ u.mode ≠ .framed →
          exec (.ufShutdown inst) s = .next (s.answered (.error (.state u.lc.asLc)))))
    ∧ (u.lc ≠ .running ∨ u.mode ≠ .raw →
      (∀ d, exec (.urWrite inst d) s = .next (s.answered (.error (.state u.lc.asLc))))
      ∧ exec (.urRead inst) s = .next (s.answered (.error (.state u.lc.asLc)))
      ∧ (s.shutdownInProgress inst.toNat = false ∨ u.mode ≠ .raw →
          exec (.urShutdown inst) s = .next (s.answered (.error (.state u.lc.asLc)))))
    ∧ (u.lc ≠ .unconstructed →
      (∀ baud, exec (.ufConstruct inst baud) s = .next (s.answered (.error (.state u.lc.asLc))))
      ∧ ∀ baud d st p, exec (.urConstruct inst baud d st p) s = .next (s.answered (.error (.state u.lc.asLc))))

/-- R196: one iteration of UF_RX. The back-off ends in an iteration of its own (log entry 11, DESIGN CHOICE), and the iteration that logs a reported read error consumes the report (log entry 14, DEDUCED). -/
def Obligations.UfRxRows : Prop :=
  ∀ (s : State) (inst : Byte) (u : Uart), s.uarts[inst.toNat]? = some u →
    (u.seqUfRx = .stopped → exec (.ufRxStep inst) s = .next s)
    ∧ (u.seqUfRx = .backoff →
      exec (.ufRxStep inst) s = .next (s.setUart inst.toNat { u with seqUfRx := .running }))
    ∧ (u.seqUfRx = .running → u.run = false →
      exec (.ufRxStep inst) s = .next (s.setUart inst.toNat { u with seqUfRx := .stopped }))
    ∧ (u.seqUfRx = .running → u.run = true → u.readErr = true →
      exec (.ufRxStep inst) s = .next (s.setUart inst.toNat { u with
        diag := u.diag ++ [.hwReadErr], seqUfRx := .backoff, readErr := false }))
    ∧ (u.seqUfRx = .running → u.run = true → u.readErr = false → u.uartOpen = true → u.rxAvail ≠ [] →
      exec (.ufRxStep inst) s = .next (s.setUart inst.toNat ({ u with
        rxBuf := (scan (u.rxBuf ++ u.rxAvail)).buf
        rxq := u.rxq ++ (scan (u.rxBuf ++ u.rxAvail)).out
        rxAvail := [] }.setScanRegs (scanBytes u.scanRegs u.rxAvail).1)))
    ∧ (u.seqUfRx = .running → u.run = true → u.readErr = false → u.uartOpen = false ∨ u.rxAvail = [] →
      exec (.ufRxStep inst) s = .next s)

/-- A frame on the line reaches the receiver of an open UART that is not transmitting, or that hears itself; a closed one hears nothing (R39, R195; 30_encoding.md R111; log entries 15 and 21, DEDUCED). So do any bytes that the line carries, frames or noise (20_memory.md R98); a read error that the UART reports changes no buffer (42_uart_framed.md R197), only the pending report of log entry 14 (DEDUCED). -/
def Obligations.FrameArrives : Prop :=
  ∀ (s : State) (inst : Byte) (p : List Byte) (lo hi : Byte),
    (∀ u, s.uarts[inst.toNat]? = some u → u.uartOpen = true → u.dir ≠ .tx ∨ s.cfg.echoInTx = true →
      exec (.frame inst p lo hi) s = .next (s.setUart inst.toNat { u with
        rxAvail := u.rxAvail ++ 0x7E :: BitVec.ofNat 8 p.length :: (p ++ [lo, hi])
        lineIn := u.lineIn ++ 0x7E :: BitVec.ofNat 8 p.length :: (p ++ [lo, hi]) }))
    ∧ (∀ u, s.uarts[inst.toNat]? = some u → u.uartOpen = false ∨ (u.dir = .tx ∧ s.cfg.echoInTx = false) →
      exec (.frame inst p lo hi) s = .next s)
    ∧ (s.uarts[inst.toNat]? = none → exec (.frame inst p lo hi) s = .next s)
    ∧ (∀ (bs : List Byte) (rest : List Stimulus), s.script = .line inst bs :: rest →
      (∀ u, s.uarts[inst.toNat]? = some u → u.uartOpen = true → u.dir ≠ .tx ∨ s.cfg.echoInTx = true →
        step s = .next ({ s with script := rest }.setUart inst.toNat { u with
          rxAvail := u.rxAvail ++ bs, lineIn := u.lineIn ++ bs }))
      ∧ (∀ u, s.uarts[inst.toNat]? = some u → u.uartOpen = false ∨ (u.dir = .tx ∧ s.cfg.echoInTx = false) →
        step s = .next { s with script := rest })
      ∧ (s.uarts[inst.toNat]? = none → step s = .next { s with script := rest }))
    ∧ ∀ rest : List Stimulus, s.script = .lineError inst :: rest →
      (∀ u, s.uarts[inst.toNat]? = some u →
        step s = .next ({ s with script := rest }.setUart inst.toNat { u with readErr := true }))
      ∧ (s.uarts[inst.toNat]? = none → step s = .next { s with script := rest })

/-- R202 at the receiver: good frames that arrive one after the other at a scanner in HUNT with an empty buffer, each followed by a step of UF_RX, are delivered in that order and nothing is left over. -/
def Obligations.LoopbackDelivers : Prop :=
  ∀ (s : State) (inst : Byte) (u : Uart) (ps : List (List Byte)), s.uarts[inst.toNat]? = some u →
    u.seqUfRx = .running → u.run = true → u.readErr = false → u.uartOpen = true → u.dir = .rx →
    u.rxBuf = [] → u.rxAvail = [] → u.seqScan = .hunt → (∀ p ∈ ps, p.length ≤ 255) →
    ∃ u' : Uart,
      execMany (ps.flatMap (fun p => [.frame inst p ((crcSum (frameBody p)).extractLsb' 0 8)
        ((crcSum (frameBody p)).extractLsb' 8 8), .ufRxStep inst])) s = .next (s.setUart inst.toNat u')
      ∧ u'.rxq = u.rxq ++ ps ∧ u'.rxBuf = [] ∧ u'.rxAvail = [] ∧ u'.seqScan = .hunt
      ∧ u'.lineIn = u.lineIn ++ (ps.map buildFrame).flatten ∧ u'.diag = u.diag

/-! ### The raw UART controller (43_uart_raw.md) -/

/-- R220: `UR.CONSTRUCT`: the checks in their order, each named, and every register it writes. -/
def Obligations.UrConstruct : Prop :=
  ∀ (s : State) (inst : Byte) (baud : Word32) (d st p : Byte) (u : Uart), s.uarts[inst.toNat]? = some u →
    let baudOk := 1200 ≤ baud.toNat ∧ baud.toNat ≤ 2000000
    let dataOk := 5 ≤ d.toNat ∧ d.toNat ≤ 9
    let stopOk := 1 ≤ st.toNat ∧ st.toNat ≤ 2
    (u.lc ≠ .unconstructed →
      exec (.urConstruct inst baud d st p) s = .next (s.answered (.error (.state u.lc.asLc))))
    ∧ (u.lc = .unconstructed → ¬ baudOk →
      exec (.urConstruct inst baud d st p) s = .next (s.answered (.error (.config .baud))))
    ∧ (u.lc = .unconstructed → baudOk → ¬ dataOk →
      exec (.urConstruct inst baud d st p) s = .next (s.answered (.error (.config .databits))))
    ∧ (u.lc = .unconstructed → baudOk → dataOk → ¬ stopOk →
      exec (.urConstruct inst baud d st p) s = .next (s.answered (.error (.config .stopbits))))
    ∧ (u.lc = .unconstructed → baudOk → dataOk → stopOk → p ∉ [0x4E, 0x45, 0x4F, 0x4D, 0x53] →
      exec (.urConstruct inst baud d st p) s = .next (s.answered (.error (.config .parity))))
    ∧ (∀ a b c e : Byte, decodeHost [0x30, inst, a, b, c, e, d, st, p]
        = .ok (.urConstruct inst (a ++ b ++ c ++ e) d st p))
    ∧ ∀ q : Parity, u.lc = .unconstructed → baudOk → dataOk → stopOk →
      (p, q) ∈ [((0x4E : Byte), Parity.n), (0x45, .e), (0x4F, .o), (0x4D, .m), (0x53, .s)] →
      exec (.urConstruct inst baud d st p) s = .next ((s.setUart inst.toNat { u with
        mode := .raw, baud := baud.toNat, databits := d.toNat, stopbits := st.toNat, parity := q
        uartOpen := true, dir := .rx, txPend := [], rxAcc := [], txBatch := [], shutReq := false
        seqUrTx := .wait, seqUrRx := .waitReady, lc := .running }).answered (.ok .none))

/-- R221, R225: `UR.WRITE` appends the whole of its data to TXPEND under TXLOCK; `UR.READ` returns and empties the whole of RXACC under RXLOCK; while the mutex is taken the operation waits. That it is one step as it is issued when the mutex is free, and that a waiting one acts later without looking at the lifecycle again, is log entry 10 (DEDUCED). -/
def Obligations.UrWriteRead : Prop :=
  (∀ (s : State) (inst : Byte) (d : List Byte) (u : Uart), s.uarts[inst.toNat]? = some u →
    (u.lc ≠ .running → exec (.urWrite inst d) s = .next (s.answered (.error (.state u.lc.asLc)))
      ∧ exec (.urRead inst) s = .next (s.answered (.error (.state u.lc.asLc))))
    ∧ (d.length < 65536 → decodeHost (0x31 :: inst :: bytesOperand d) = .ok (.urWrite inst d))
    ∧ decodeHost [0x32, inst] = .ok (.urRead inst)
    ∧ (u.lc = .running → u.mode = .raw → u.databits = 8 →
      (u.txLock = .free → exec (.urWrite inst d) s =
        .next ((s.setUart inst.toNat { u with txPend := u.txPend ++ d }).answered (.ok .none)))
      ∧ (u.txLock ≠ .free → exec (.urWrite inst d) s = .next (s.issued (.urWrite inst.toNat d)))
      ∧ (u.rxLock = .free → exec (.urRead inst) s =
        .next ((s.setUart inst.toNat { u with rxAcc := [] }).answered (.ok (.bytes u.rxAcc))))
      ∧ (u.rxLock ≠ .free → exec (.urRead inst) s = .next (s.issued (.urRead inst.toNat)))))
  ∧ ∀ (s : State) (t i : Nat) (b : Bool) (d : List Byte) (u : Uart), s.uarts[i]? = some u →
      (s.findOp t = some (.urWrite i d) → u.txLock = .free → resume t b s =
        .next ((s.setUart i { u with txPend := u.txPend ++ d }).ended t (.ok .none)))
      ∧ (s.findOp t = some (.urWrite i d) → u.txLock ≠ .free → resume t b s = .next s)
      ∧ (s.findOp t = some (.urRead i) → u.rxLock = .free → resume t b s =
        .next ((s.setUart i { u with rxAcc := [] }).ended t (.ok (.bytes u.rxAcc))))
      ∧ (s.findOp t = some (.urRead i) → u.rxLock ≠ .free → resume t b s = .next s)

/-- R223: the rows of UR_TX on a controller with eight data bits; in WAIT a requested shutdown wins. Row WRITING also lets the receiver hear the batch at once under ECHO_IN_TX, which is R195 as log entry 15 reads it (DEDUCED). -/
def Obligations.UrTxRows : Prop :=
  ∀ (s : State) (inst : Byte) (u : Uart), s.uarts[inst.toNat]? = some u → u.databits = 8 →
    (u.seqUrTx = .wait → u.shutReq = true →
      exec (.urTxStep inst) s = .next (s.setUart inst.toNat { u with seqUrTx := .stopped }))
    ∧ (u.seqUrTx = .wait → u.shutReq = false → u.txPend ≠ [] → u.txLock = .free →
      exec (.urTxStep inst) s = .next (s.setUart inst.toNat { u with
        txBatch := u.txPend, txPend := [], seqUrTx := .drained }))
    ∧ (u.seqUrTx = .wait → u.shutReq = false → u.txPend = [] ∨ u.txLock ≠ .free →
      exec (.urTxStep inst) s = .next s)
    ∧ (u.seqUrTx = .drained →
      exec (.urTxStep inst) s = .next (s.setUart inst.toNat { u with dir := .tx, seqUrTx := .writing }))
    ∧ (u.seqUrTx = .writing → u.uartOpen = true → u.dir = .tx →
      exec (.urTxStep inst) s = .next (s.setUart inst.toNat { u with
        lineOut := u.lineOut ++ u.txBatch.map (fun b => (b, Dir.tx))
        rxAvail := u.rxAvail ++ (if s.cfg.echoInTx then u.txBatch else [])
        lineIn := u.lineIn ++ (if s.cfg.echoInTx then u.txBatch else [])
        seqUrTx := .txOff }))
    ∧ (u.seqUrTx = .txOff →
      exec (.urTxStep inst) s = .next (s.setUart inst.toNat { u with dir := .rx, txBatch := [], seqUrTx := .wait }))
    ∧ (u.seqUrTx = .stopped → exec (.urTxStep inst) s = .next s)

/-- R224: the rows of UR_RX on a controller with eight data bits. That the agent's step changes nothing where no row is enabled is log entry 32 (DESIGN CHOICE). -/
def Obligations.UrRxRows : Prop :=
  ∀ (s : State) (inst : Byte) (u : Uart), s.uarts[inst.toNat]? = some u → u.databits = 8 →
    (u.seqUrRx = .waitReady → u.shutReq = true →
      exec (.urRxStep inst) s = .next (s.setUart inst.toNat { u with seqUrRx := .stopped }))
    ∧ (u.seqUrRx = .waitReady → u.shutReq = false → u.uartOpen = true → u.rxAvail ≠ [] →
      exec (.urRxStep inst) s = .next (s.setUart inst.toNat { u with
        rxAvail := [], seqUrRx := .draining u.rxAvail }))
    ∧ (u.seqUrRx = .waitReady → u.shutReq = false → u.uartOpen = false ∨ u.rxAvail = [] →
      exec (.urRxStep inst) s = .next s)
    ∧ (∀ bs, u.seqUrRx = .draining bs → u.rxLock = .free →
      exec (.urRxStep inst) s = .next (s.setUart inst.toNat { u with
        rxAcc := u.rxAcc ++ bs, seqUrRx := .waitReady }))
    ∧ (∀ bs, u.seqUrRx = .draining bs → u.rxLock ≠ .free → exec (.urRxStep inst) s = .next s)
    ∧ (u.seqUrRx = .stopped → exec (.urRxStep inst) s = .next s)

/-- R228: two writes put their bytes on the line whole and in the order of the appends, in one burst or in two, and DIR is RX again; R226: nothing is added or removed. That `UR.WRITE` is one step as it is issued is log entry 10 (DEDUCED). -/
def Obligations.WritersContiguous : Prop :=
  ∀ (s : State) (inst : Byte) (u : Uart) (d d' : List Byte), s.uarts[inst.toNat]? = some u →
    u.lc = .running → u.mode = .raw → u.databits = 8 → u.txLock = .free → u.uartOpen = true → u.dir = .rx →
    u.seqUrTx = .wait → u.shutReq = false → u.txPend = [] → u.txBatch = [] → s.cfg.echoInTx = false →
    ∃ t, execMany ([.urWrite inst d, .urWrite inst d'] ++ List.replicate 4 (.urTxStep inst)) s = .next t
      ∧ t.uarts = s.uarts.set inst.toNat { u with lineOut := u.lineOut ++ (d ++ d').map (fun b => (b, Dir.tx)) }
      ∧ execMany ([.urWrite inst d] ++ List.replicate 4 (.urTxStep inst) ++ [.urWrite inst d']
          ++ List.replicate 4 (.urTxStep inst)) s = .next t

/-- R227: the rows of `UR.SHUTDOWN`; and its run on a controller at rest with bytes pending, in which the agents take their rows in time: the bytes leave, both agents stop, the UART is closed and the lines are released. That RXACC, and TXPEND after a drain that timed out, are kept is the model's choice (log entry 27, DESIGN CHOICE). -/
def Obligations.UrShutdownRuns : Prop :=
  (∀ (s : State) (inst : Byte) (u : Uart), s.uarts[inst.toNat]? = some u → u.mode = .raw →
    s.shutdownInProgress inst.toNat = false →
    (u.lc ≠ .running → exec (.urShutdown inst) s = .next (s.answered (.error (.state u.lc.asLc))))
    ∧ decodeHost [0x33, inst] = .ok (.urShutdown inst)
    ∧ (u.lc = .running → exec (.urShutdown inst) s =
        .next ((s.setUart inst.toNat { u with lc := .shut }).issued (.urShutdown inst.toNat .drain)))
    ∧ (u.lc = .running → s.FreshTicket → u.databits = 8 → u.seqUrTx = .wait → u.seqUrRx = .waitReady →
        u.shutReq = false → u.txLock = .free → u.txBatch = [] → u.uartOpen = true → u.dir = .rx →
        s.cfg.echoInTx = false →
        performMany ([.issue [0x33, inst]] ++ List.replicate 4 (.agent (.urTx inst))
            ++ [.resume s.nextTicket false, .resume s.nextTicket false, .agent (.urTx inst), .agent (.urRx inst),
              .resume s.nextTicket false, .resume s.nextTicket false]) s
          = .next ((s.setUart inst.toNat { u with
              lc := .shut, shutReq := true, uartOpen := false, dir := .released, txPend := []
              lineOut := u.lineOut ++ u.txPend.map (fun b => (b, Dir.tx))
              seqUrTx := .stopped, seqUrRx := .stopped }).answered (.ok .none))))
  ∧ ∀ (s : State) (t i : Nat) (b : Bool) (u : Uart), s.uarts[i]? = some u →
      (s.findOp t = some (.urShutdown i .drain) → (u.txPend = [] ∧ u.seqUrTx = .wait) ∨ b = true →
        resume t b s = .next (s.setOp t (.urShutdown i .flag)))
      ∧ (s.findOp t = some (.urShutdown i .drain) → u.txPend ≠ [] ∨ u.seqUrTx ≠ .wait → b = false →
        resume t b s = .next s)
      ∧ (s.findOp t = some (.urShutdown i .flag) →
        resume t b s = .next ((s.setUart i { u with shutReq := true }).setOp t (.urShutdown i .join)))
      ∧ (s.findOp t = some (.urShutdown i .join) →
        (u.seqUrTx = .stopped ∧ u.seqUrRx = .stopped) ∨ (b = true ∧ (u.seqUrTx = .wait ∨ u.seqUrTx = .stopped)) →
        resume t b s = .next (s.setOp t (.urShutdown i .close)))
      ∧ (s.findOp t = some (.urShutdown i .join) → u.seqUrTx ≠ .stopped ∨ u.seqUrRx ≠ .stopped → b = false →
        resume t b s = .next s)
      ∧ (s.findOp t = some (.urShutdown i .close) → resume t b s =
        .next ((s.setUart i { u with uartOpen := false, dir := .released }).ended t (.ok .none)))

/-- R116: with 5, 6, 7 or 9 data bits the construction succeeds, and the data path is refused. -/
def Obligations.DataBitsRefused : Prop :=
  ∀ (s : State) (inst : Byte) (u : Uart), s.uarts[inst.toNat]? = some u →
    (∀ d : Byte, u.lc = .unconstructed → 5 ≤ d.toNat → d.toNat ≤ 9 →
      ∃ t, exec (.urConstruct inst 9600 d 1 0x4E) s = .next t
        ∧ t.responses = s.responses ++ [(s.nextTicket, .ok .none)])
    ∧ (u.lc = .running → u.mode = .raw → u.databits ≠ 8 →
      (∀ d, exec (.urWrite inst d) s = .refused .dataBitsUnmapped)
      ∧ exec (.urRead inst) s = .refused .dataBitsUnmapped
      ∧ (u.seqUrTx ≠ .stopped → exec (.urTxStep inst) s = .refused .dataBitsUnmapped)
      ∧ (u.seqUrRx ≠ .stopped → exec (.urRxStep inst) s = .refused .dataBitsUnmapped))

/-- 20_memory.md R102 with 93 U1 and U2: the runs that the spec gives no meaning are refused, each by its name. -/
def Obligations.MeaninglessRunsRefused : Prop :=
  ∀ (s : State) (inst : Byte) (u : Uart), s.uarts[inst.toNat]? = some u →
    (u.mode = .framed → u.lc = .running → s.shutdownInProgress inst.toNat = false →
      s.sendInProgress inst.toNat = true → exec (.ufShutdown inst) s = .refused .shutdownDuringSend)
    ∧ (u.mode = .framed → s.shutdownInProgress inst.toNat = true →
      exec (.ufShutdown inst) s = .refused .overlappingShutdown)
    ∧ (u.mode = .raw → s.shutdownInProgress inst.toNat = true →
      exec (.urShutdown inst) s = .refused .overlappingShutdown)
    ∧ ∀ t, s.findOp t = some (.urShutdown inst.toNat .join) →
      u.seqUrTx = .drained ∨ u.seqUrTx = .writing ∨ u.seqUrTx = .txOff →
      resume t true s = .refused .joinTimeoutDuringBatch

/-! ### The radio controller: handshake and construction (44_radio_handshake.md) -/

/-- R247 with R246 and the bytes of R122: each of the nine commands is one radio step; with the port closed it makes no transaction, and while SPILOCK is held the row is not enabled. As an instruction of its own each is the step standing alone (log entry 23). -/
def Obligations.RadioCommands : Prop :=
  ∀ (s : State) (i : Instr) (cmd : List Byte) (k : Nat),
    ((i = .rcPowerUp ∧ cmd = s.cfg.opcPowerUp.bytes ++ s.cfg.argsPowerUp ∧ k = 0)
      ∨ (i = .rcGpioCfg ∧ cmd = s.cfg.opcGpioCfg.bytes ++ s.cfg.argsGpioCfg ∧ k = 0)
      ∨ (∃ p, i = .rcSetProperty p ∧ cmd = propertyBytes s.cfg p ∧ k = 0)
      ∨ (i = .rcClearTxFifo ∧ cmd = s.cfg.opcClearTxFifo.bytes ∧ k = 0)
      ∨ (∃ pkt, i = .rcWriteTxFifo pkt ∧ cmd = s.cfg.opcWriteTxFifo.bytes ++ pkt ∧ k = 0)
      ∨ (∃ ch n, i = .rcStartTx ch n ∧ cmd = s.cfg.opcStartTx.bytes ++ Config.argsStartTx ch n ∧ k = 0)
      ∨ (∃ ch, i = .rcStartRx ch ∧ cmd = s.cfg.opcStartRx.bytes ++ Config.argsStartRx ch ∧ k = 0)
      ∨ (i = .rcRxLen ∧ cmd = s.cfg.opcRxLen.bytes ∧ k = 2)
      ∨ (i = .rcReadRxFifo k ∧ cmd = s.cfg.opcReadRxFifo.bytes)) →
    (s.radio.spiLock = .free → s.radio.spiOpen = true → ∃ t, exec i s = .next t ∧ RadioStepDone cmd k s t)
    ∧ (s.radio.spiLock = .free → s.radio.spiOpen = false →
      exec i s = .next (s.setRadio { s.radio with seqPoll := .idle, res := .closed }))
    ∧ (s.radio.spiLock ≠ .free → exec i s = .next s)

/-- R246: the ready-poll of each of the nine commands ends READY at the first ready status read: not-ready answers before it, as many as time allows, are made and discarded. The answers are the next bytes of the tape of log entry 6, the time is that of log entry 7. -/
def Obligations.PollEndsAtFirstReady : Prop :=
  ∀ (s : State) (i : Instr) (cmd : List Byte) (k : Nat) (notReady : List (List Byte)) (resp rest : List Byte) (limit : Nat) (limits : List Nat),
    RadioCommand s.cfg i cmd k → s.radio.spiLock = .free → s.radio.spiOpen = true →
    (∀ r ∈ notReady, r.length = 1 + k ∧ r.head? ≠ some s.cfg.ctsReady) → resp.length = k →
    s.spiIn = notReady.flatten ++ s.cfg.ctsReady :: (resp ++ rest) →
    s.pollLimits = limit :: limits → notReady.length ≤ limit →
    exec i s = .next { s with
      radio := { s.radio with
        spiLog := s.radio.spiLog ++ stepLog s.cfg cmd (notReady ++ [s.cfg.ctsReady :: resp])
        seqPoll := .idle, res := .ready resp }
      spiIn := rest, pollLimits := limits }

/-- R251, standing alone (log entry 23): one transaction; ready exactly when the first byte is CTS_READY, and the other bytes are kept only then. -/
def Obligations.ReadStatus : Prop :=
  ∀ (s : State) (k : Nat),
    (s.radio.spiLock = .free → s.radio.spiOpen = true →
      ∃ (r0 : Byte) (resp : List Byte) (t : State), resp.length = k ∧ exec (.rcReadStatus k) s = .next t
        ∧ t = { s with
            radio := { s.radio with
              spiLog := s.radio.spiLog ++ [(s.cfg.opcReadStatus.bytes, r0 :: resp)]
              seqPoll := if r0 = s.cfg.ctsReady then .ready else .polling
              res := if r0 = s.cfg.ctsReady then .ready resp else s.radio.res }
            spiIn := t.spiIn, draws := t.draws }
        ∧ (∀ b bs, s.spiIn = b :: bs → r0 = b))
    ∧ (s.radio.spiLock = .free → s.radio.spiOpen = false →
      exec (.rcReadStatus k) s = .next (s.setRadio { s.radio with res := .closed }))
    ∧ (s.radio.spiLock ≠ .free → exec (.rcReadStatus k) s = .next s)

/-- R261: the singleton guard: with ALLOC = 1 E_STATE and nothing changes; else the whole of S0 in one step. -/
def Obligations.RdConstructGuard : Prop :=
  ∀ (s : State) (ch : Word16) (props : List PropRecord),
    (s.radio.alloc = true → exec (.rdConstruct ch props) s = .next (s.answered (.error (.state s.radio.lc))))
    ∧ (s.radio.alloc = false → exec (.rdConstruct ch props) s = .next ((s.setRadio { s.radio with
        alloc := true, lc := .constructing, shutdown := false
        txq := [], rxList := [], txBatchR := [], irqPend := 0, seqCons := .s1Parse }).issued (.rdConstruct ch props)))

/-- R262, R271, R264: step S1 checks the channel, then the count, and a failure undoes S0; a good configuration is written to its registers. -/
def Obligations.RdConstructParse : Prop :=
  ∀ (s : State) (t : Nat) (b : Bool) (ch : Word16) (props : List PropRecord),
    s.findOp t = some (.rdConstruct ch props) → s.radio.seqCons = .s1Parse →
    (255 < ch.toNat → resume t b s = .next ((s.setRadio { s.radio with
      alloc := false, lc := .unconstructed, seqCons := .s0Guard }).ended t (.error (.config .channel))))
    ∧ (ch.toNat ≤ 255 → props.length ≠ 31 → resume t b s = .next ((s.setRadio { s.radio with
      alloc := false, lc := .unconstructed, seqCons := .s0Guard }).ended t
        (.error (.config (.properties props.length)))))
    ∧ (ch.toNat ≤ 255 → props.length = 31 → resume t b s = .next (s.setRadio { s.radio with
      channel := ch.setWidth 8, props := props
      tPoll := s.cfg.tPoll, tShutdown := s.cfg.tShutdown
      tResetHold := s.cfg.tResetHold, tResetSettle := s.cfg.tResetSettle
      seqCons := .s2Reset .assert }))

/-- R260 with R272, R263, R266, R267, R269: when every status read answers ready at once, a construction issues its 34 + m commands in order, each followed by exactly one status read, and ends RUNNING with OK after 41 + m rows. The answers are the tape of log entry 6; that the rows are so many is log entry 12, and that the time registers are written in S1 log entry 30 (both DEDUCED). -/
def Obligations.RdConstructRuns : Prop :=
  ∀ (s : State) (ch : Word16) (props : List PropRecord) (rest : List Byte),
    let m := s.cfg.intOverrides.length
    s.radio.alloc = false → s.radio.spiLock = .free → s.FreshTicket → ch.toNat ≤ 255 → props.length = 31 →
    s.spiIn = List.replicate (34 + m) s.cfg.ctsReady ++ rest →
    ∃ s1 t, exec (.rdConstruct ch props) s = .next s1
      ∧ resumeMany (41 + m) s.nextTicket false s1 = .next t
      ∧ t = { s with
          radio := { s.radio with
            lc := .running, alloc := true, shutdown := false, irqEn := true, irqPend := 0
            channel := ch.setWidth 8, props := props
            tPoll := s.cfg.tPoll, tShutdown := s.cfg.tShutdown
            tResetHold := s.cfg.tResetHold, tResetSettle := s.cfg.tResetSettle
            txq := [], rxList := [], txBatchR := []
            spiOpen := true, rst := .deasserted
            seqCons := .done, seqRdTx := .wait, seqPoll := .idle, res := .ready []
            spiLog := s.radio.spiLog
              ++ (constructionCommands s.cfg (ch.setWidth 8) props).flatMap (fun cmd => readyLog s.cfg cmd []) }
          responses := s.responses ++ [(s.nextTicket, .ok .none)]
          nextTicket := s.nextTicket + 1
          spiIn := rest, pollLimits := t.pollLimits, draws := t.draws }

/-- R270 with R260: each row of S3 to S8 is one radio step; READY goes to the next row, TIMEOUT is fatal: IRQ_EN is cleared, LC and SEQ_CONS become FAILED, ALLOC stays, and the response names the step; with SPILOCK taken the row waits (R247). And the rows that issue no command: S2, the reset pulse (R263, its four parts being the rows of log entry 12, DEDUCED), S7 (R267) and S9 (R269), which leaves RXLIST alone. And the order (R250, R263, R272): in a construction whose IRQ_EN is still 0 no step makes a transaction but the construction's own rows, so that power-up comes first after the reset pulse, whatever a shutdown left over (log entry 44, DEDUCED); that IRQ_EN is 0 in every row before S7 is part of GuardInv, which RadioInvsKept says every step keeps. -/
def Obligations.ConstructionHandshake : Prop :=
  (∀ (s : State) (t : Nat) (b : Bool) (ch : Word16) (props : List PropRecord) (cmd : List Byte)
    (st : HandshakeStep) (next : ConsSeq),
    s.findOp t = some (.rdConstruct ch props) → consRow s = some (cmd, st, next) →
    s.radio.spiLock = .free → s.radio.spiOpen = true →
    ∃ s' s1, resume t b s = .next s' ∧ RadioStepDone cmd 0 s s1
      ∧ (∀ resp, s1.radio.res = .ready resp → s' = s1.setRadio { s1.radio with seqCons := next })
      ∧ (s1.radio.res = .timeout →
          ∃ rst spiOpen, s' = { s1 with
            radio := { s1.radio with irqEn := false, lc := .failed, seqCons := .failed, rst := rst, spiOpen := spiOpen }
            ops := s.ops.filter (fun e => e.1 != t)
            responses := s.responses ++ [(t, .error (.handshake st))]
            draws := s'.draws })
      ∧ ((∃ resp, s1.radio.res = .ready resp) ∨ s1.radio.res = .timeout))
  ∧ (∀ (s : State) (t : Nat) (b : Bool) (ch : Word16) (props : List PropRecord),
      s.findOp t = some (.rdConstruct ch props) →
      (∀ cmd st next, consRow s = some (cmd, st, next) → s.radio.spiLock ≠ .free → resume t b s = .next s)
      ∧ (s.radio.seqCons = .s2Reset .assert → resume t b s = .next (s.setRadio { s.radio with
          spiOpen := true, rst := .asserted, seqCons := .s2Reset .hold }))
      ∧ (s.radio.seqCons = .s2Reset .hold → resume t b s = .next (s.setRadio { s.radio with
          seqCons := .s2Reset .release }))
      ∧ (s.radio.seqCons = .s2Reset .release → resume t b s = .next (s.setRadio { s.radio with
          rst := .deasserted, seqCons := .s2Reset .settle }))
      ∧ (s.radio.seqCons = .s2Reset .settle → resume t b s = .next (s.setRadio { s.radio with
          seqCons := .s3PowerUp }))
      ∧ (s.radio.seqCons = .s7Irq → resume t b s = .next (s.setRadio { s.radio with
          irqPend := 0, irqEn := true, seqCons := .s8Rx }))
      ∧ (s.radio.seqCons = .s9Start → resume t b s = .next ((s.setRadio { s.radio with
          seqRdTx := .wait, lc := .running, seqCons := .done }).ended t (.ok .none))))
  ∧ ∀ s s' : State, step s = .next s' → s.radio.lc = .constructing → s.radio.irqEn = false →
      s'.radio.spiLog = s.radio.spiLog
      ∨ ∃ t b rest ch props cmd st next reads, s.script = .resume t b :: rest
          ∧ s.findOp t = some (.rdConstruct ch props) ∧ consRow s = some (cmd, st, next)
          ∧ s'.radio.spiLog = s.radio.spiLog ++ stepLog s.cfg cmd reads

/-- R270: only a hardware reset leaves FAILED; there every radio operation answers E_STATE, and no agent of the radio has a step. -/
def Obligations.FailedIsTerminal : Prop :=
  (∀ s t : State, FailedInv s → step s = .next t → FailedInv t ∨ ∃ rest, s.script = .hardReset :: rest)
  ∧ ∀ s : State, FailedInv s →
      (∀ ch props, exec (.rdConstruct ch props) s = .next (s.answered (.error (.state .failed))))
      ∧ (∀ ps, exec (.rdTransmit ps) s = .next (s.answered (.error (.state .failed))))
      ∧ exec .rdReceive s = .next (s.answered (.error (.state .failed)))
      ∧ exec .rdShutdown s = .next (s.answered (.error (.state .failed)))
      ∧ (∀ g, exec (.rdTxStep g) s = .next s) ∧ exec .rdIrqStep s = .next s

/-! ### The radio controller at run time (45_radio_txrx.md) -/

/-- R280: `RD.TRANSMIT` checks the lifecycle, then every length, and names the first bad packet; only then is the whole list appended. That it is one step as it is issued when TXQLOCK is free, and that a waiting one acts later without looking at the lifecycle again, is log entry 10 (DEDUCED). -/
def Obligations.RdTransmit : Prop :=
  (∀ (s : State) (ps : List (List Byte)),
    (s.radio.lc ≠ .running → exec (.rdTransmit ps) s = .next (s.answered (.error (.state s.radio.lc))))
    ∧ (∀ pre p post, s.radio.lc = .running → ps = pre ++ p :: post → (∀ q ∈ pre, 0 < q.length ∧ q.length ≤ 64) →
        ¬ (0 < p.length ∧ p.length ≤ 64) →
        exec (.rdTransmit ps) s = .next (s.answered (.error (.size pre.length p.length))))
    ∧ (s.radio.lc = .running → (∀ q ∈ ps, 0 < q.length ∧ q.length ≤ 64) → s.radio.txqLock = .free →
        exec (.rdTransmit ps) s =
          .next ((s.setRadio { s.radio with txq := s.radio.txq ++ ps }).answered (.ok .none)))
    ∧ (s.radio.lc = .running → (∀ q ∈ ps, 0 < q.length ∧ q.length ≤ 64) → s.radio.txqLock ≠ .free →
        exec (.rdTransmit ps) s = .next (s.issued (.rdTransmit ps)))
    ∧ (ps.length < 65536 → (∀ p ∈ ps, p.length < 65536) →
        decodeHost (0x41 :: 0x00 :: BitVec.ofNat 8 (ps.length / 256) :: BitVec.ofNat 8 ps.length
          :: ps.flatMap bytesOperand) = .ok (.rdTransmit ps)))
  ∧ ∀ (s : State) (t : Nat) (b : Bool) (ps : List (List Byte)), s.findOp t = some (.rdTransmit ps) →
      (s.radio.txqLock = .free → resume t b s =
        .next ((s.setRadio { s.radio with txq := s.radio.txq ++ ps }).ended t (.ok .none)))
      ∧ (s.radio.txqLock ≠ .free → resume t b s = .next s)

/-- R283 with R284, R285: the rows of RD_TX, which has none in FAILED (R270) and, as log entry 44 reads R250, R269 and R272 (DEDUCED), no radio row while a construction has the port open; with the port closed every radio row ends CLOSED, whatever LC and the batch are. `next j s1` is NEXT(j). -/
def Obligations.RdTxRows : Prop :=
  let next : Nat → State → State := fun j s1 =>
    if j + 1 < s1.radio.txBatchR.length then s1.setRadio { s1.radio with seqRdTx := .batch (j + 1) .clear }
    else if s1.radio.sentAny then s1.setRadio { s1.radio with seqRdTx := .rearm }
    else s1.setRadio { s1.radio with seqRdTx := .wait, txBatchR := [] }
  (∀ (s : State) (g : Bool), s.radio.lc = .failed → exec (.rdTxStep g) s = .next s)
  ∧ (∀ (s : State) (g : Bool), s.radio.lc = .constructing → s.radio.spiOpen = true →
      (∃ j st, s.radio.seqRdTx = .batch j st) ∨ s.radio.seqRdTx = .rearm → g = false ∨ s.radio.shutdown = false →
      exec (.rdTxStep g) s = .next s)
  ∧ ∀ s : State, s.radio.lc ≠ .failed →
    (∀ g, s.radio.seqRdTx = .wait → s.radio.shutdown = true →
      exec (.rdTxStep g) s = .next (s.setRadio { s.radio with seqRdTx := .stopped }))
    ∧ (∀ g, s.radio.seqRdTx = .wait → s.radio.shutdown = false → s.radio.txq ≠ [] → s.radio.txqLock = .free →
      exec (.rdTxStep g) s = .next (s.setRadio { s.radio with
        txBatchR := s.radio.txq, txq := [], txIdx := 0, sentAny := false, seqRdTx := .batch 0 .clear }))
    ∧ (∀ g, s.radio.seqRdTx = .wait → s.radio.shutdown = false → s.radio.txq = [] ∨ s.radio.txqLock ≠ .free →
      exec (.rdTxStep g) s = .next s)
    ∧ (∀ g, s.radio.seqRdTx = .stopped → exec (.rdTxStep g) s = .next s)
    ∧ ((∃ j st, s.radio.seqRdTx = .batch j st) ∨ s.radio.seqRdTx = .rearm → s.radio.shutdown = true →
      exec (.rdTxStep true) s = .next (s.setRadio { s.radio with seqRdTx := .stopped }))
    ∧ (∀ g : Bool, (∃ j st, s.radio.seqRdTx = .batch j st) ∨ s.radio.seqRdTx = .rearm →
      g = false ∨ s.radio.shutdown = false → s.radio.spiLock ≠ .free → exec (.rdTxStep g) s = .next s)
    ∧ (∀ g : Bool, g = false ∨ s.radio.shutdown = false → s.radio.spiLock = .free → s.radio.spiOpen = false →
      (∀ j, s.radio.seqRdTx = .batch j .clear → exec (.rdTxStep g) s = .next (s.setRadio { s.radio with
        txIdx := j, seqPoll := .idle, res := .closed, seqRdTx := .stopped }))
      ∧ (∀ j st, s.radio.seqRdTx = .batch j st → st ≠ .clear →
        ∃ d, exec (.rdTxStep g) s = .next { s with
            radio := { s.radio with seqPoll := .idle, res := .closed, seqRdTx := .stopped }, draws := d }
          ∧ (∀ p, s.radio.txBatchR[j]? = some p → d = s.draws))
      ∧ (s.radio.seqRdTx = .rearm → exec (.rdTxStep g) s = .next (s.setRadio { s.radio with
          seqPoll := .idle, res := .closed, seqRdTx := .stopped, txBatchR := [] })))
    ∧ ∀ g : Bool, s.radio.spiLock = .free → s.radio.spiOpen = true → s.radio.lc ≠ .constructing →
      g = false ∨ s.radio.shutdown = false →
      (∀ j, s.radio.seqRdTx = .batch j .clear →
        AfterRadioStep s.cfg.opcClearTxFifo.bytes 0 (s.setRadio { s.radio with txIdx := j }) fun s1 =>
          ((∃ r, s1.radio.res = .ready r) ∧
            exec (.rdTxStep g) s = .next (s1.setRadio { s1.radio with seqRdTx := .batch j .write }))
          ∨ (s1.radio.res = .timeout ∧ exec (.rdTxStep g) s = .next (next j s1)))
      ∧ (∀ j p, s.radio.seqRdTx = .batch j .write → s.radio.txBatchR[j]? = some p →
        AfterRadioStep (s.cfg.opcWriteTxFifo.bytes ++ p) 0 s fun s1 =>
          ((∃ r, s1.radio.res = .ready r) ∧
            exec (.rdTxStep g) s = .next (s1.setRadio { s1.radio with seqRdTx := .batch j .start }))
          ∨ (s1.radio.res = .timeout ∧ exec (.rdTxStep g) s = .next (next j s1)))
      ∧ (∀ j p, s.radio.seqRdTx = .batch j .start → s.radio.txBatchR[j]? = some p →
        AfterRadioStep (s.cfg.opcStartTx.bytes ++ Config.argsStartTx s.radio.channel p.length) 0 s fun s1 =>
          ((∃ r, s1.radio.res = .ready r) ∧
            exec (.rdTxStep g) s = .next (next j (s1.setRadio { s1.radio with sentAny := true })))
          ∨ (s1.radio.res = .timeout ∧ exec (.rdTxStep g) s = .next (next j s1)))
      ∧ (s.radio.seqRdTx = .rearm →
        AfterRadioStep (s.cfg.opcStartRx.bytes ++ Config.argsStartRx s.radio.channel) 0 s fun s1 =>
          exec (.rdTxStep g) s = .next (s1.setRadio { s1.radio with txBatchR := [], seqRdTx := .wait }))

/-- R283, R285, R296: when every poll is ready at once, a batch of n packets is worked through in queue order, clear, write and start for each, then one re-arm, in 3n + 2 rows. The answers are the tape of log entry 6. -/
def Obligations.RdTxBatchRuns : Prop :=
  ∀ (s : State) (g : Bool) (rest : List Byte), s.radio.lc ≠ .failed → s.radio.lc ≠ .constructing →
    s.radio.seqRdTx = .wait →
    s.radio.shutdown = false → s.radio.txq ≠ [] → s.radio.txqLock = .free → s.radio.spiLock = .free →
    s.radio.spiOpen = true →
    s.spiIn = List.replicate (3 * s.radio.txq.length + 1) s.cfg.ctsReady ++ rest →
    ∃ t, execMany (List.replicate (3 * s.radio.txq.length + 2) (.rdTxStep g)) s = .next t
      ∧ t = { s with
          radio := { s.radio with
            txq := [], txBatchR := [], txIdx := s.radio.txq.length - 1, sentAny := true
            seqPoll := .idle, res := .ready []
            spiLog := s.radio.spiLog ++ s.radio.txq.flatMap (packetLog s.cfg s.radio.channel)
              ++ readyLog s.cfg (s.cfg.opcStartRx.bytes ++ Config.argsStartRx s.radio.channel) [] }
          spiIn := rest, pollLimits := t.pollLimits, draws := t.draws }

/-- R287, R288, R289: the rows of RD_IRQ; the length is not checked. The agent has no row in FAILED (R270) and, as log entry 44 reads R250, R267 and 60_exceptions.md R324 (DEDUCED), no radio row while a construction has the port open and has not reached S7, which sets IRQ_EN. That no row reads SHUTDOWN is log entry 47 (DESIGN CHOICE). -/
def Obligations.RdIrqRows : Prop :=
  (∀ s : State, s.radio.lc = .failed → exec .rdIrqStep s = .next s)
  ∧ (∀ s : State, s.radio.lc = .constructing → s.radio.spiOpen = true → s.radio.irqEn = false →
      s.radio.seqRdIrq = .len ∨ (∃ n, s.radio.seqRdIrq = .data n) → exec .rdIrqStep s = .next s)
  ∧ ∀ s : State, s.radio.lc ≠ .failed →
    (s.radio.seqRdIrq = .idle → s.radio.irqEn = true → 0 < s.radio.irqPend →
      exec .rdIrqStep s = .next (s.setRadio { s.radio with irqPend := s.radio.irqPend - 1, seqRdIrq := .len }))
    ∧ (s.radio.seqRdIrq = .idle → s.radio.irqEn = false ∨ s.radio.irqPend = 0 → exec .rdIrqStep s = .next s)
    ∧ (s.radio.seqRdIrq = .len → s.radio.spiLock = .free → s.radio.spiOpen = true →
      (s.radio.lc = .constructing → s.radio.irqEn = true) →
      AfterRadioStep s.cfg.opcRxLen.bytes 2 s fun s1 =>
        (∃ hi lo, s1.radio.res = .ready [hi, lo] ∧ exec .rdIrqStep s =
          .next (s1.setRadio { s1.radio with seqRdIrq := .data (256 * hi.toNat + lo.toNat) }))
        ∨ (s1.radio.res = .timeout ∧ exec .rdIrqStep s = .next (s1.setRadio { s1.radio with seqRdIrq := .idle })))
    ∧ (∀ n, s.radio.seqRdIrq = .data n → s.radio.spiLock = .free → s.radio.spiOpen = true →
      (s.radio.lc = .constructing → s.radio.irqEn = true) →
      AfterRadioStep s.cfg.opcReadRxFifo.bytes n s fun s1 =>
        (∃ d, d.length = n ∧ s1.radio.res = .ready d ∧ exec .rdIrqStep s =
          .next (s1.setRadio { s1.radio with seqRdIrq := .store d }))
        ∨ (s1.radio.res = .timeout ∧ exec .rdIrqStep s = .next (s1.setRadio { s1.radio with seqRdIrq := .idle })))
    ∧ (s.radio.seqRdIrq = .len ∨ (∃ n, s.radio.seqRdIrq = .data n) → s.radio.spiLock = .free →
      s.radio.spiOpen = false → exec .rdIrqStep s =
        .next (s.setRadio { s.radio with seqPoll := .idle, res := .closed, seqRdIrq := .idle }))
    ∧ (s.radio.seqRdIrq = .len ∨ (∃ n, s.radio.seqRdIrq = .data n) → s.radio.spiLock ≠ .free →
      exec .rdIrqStep s = .next s)
    ∧ (∀ d, s.radio.seqRdIrq = .store d → s.radio.rxlLock = .free → exec .rdIrqStep s =
        .next (s.setRadio { s.radio with rxList := s.radio.rxList ++ [d], seqRdIrq := .idle }))
    ∧ (∀ d, s.radio.seqRdIrq = .store d → s.radio.rxlLock ≠ .free → exec .rdIrqStep s = .next s)

/-- One falling edge and ready answers: the packet of the announced length, whatever it is, goes to RXLIST in four rows and `RD.RECEIVE` returns it (R287, R290), whatever SHUTDOWN is (log entry 47, DESIGN CHOICE). The answers are the tape of log entry 6, and that `RD.RECEIVE` is one step as it is issued is log entry 10 (DEDUCED). -/
def Obligations.ReceiveRuns : Prop :=
  ∀ (s : State) (hi lo : Byte) (d rest : List Byte), s.radio.lc = .running → s.radio.seqRdIrq = .idle →
    s.radio.irqEn = true → s.radio.irqPend = 1 → s.radio.spiLock = .free → s.radio.spiOpen = true →
    s.radio.rxlLock = .free → d.length = 256 * hi.toNat + lo.toNat →
    s.spiIn = s.cfg.ctsReady :: hi :: lo :: s.cfg.ctsReady :: (d ++ rest) →
    ∃ t, execMany (List.replicate 4 .rdIrqStep ++ [.rdReceive]) s = .next t
      ∧ t = { s with
          radio := { s.radio with
            irqPend := 0, rxList := [], seqPoll := .idle, res := .ready d
            spiLog := s.radio.spiLog ++ readyLog s.cfg s.cfg.opcRxLen.bytes [hi, lo]
              ++ readyLog s.cfg s.cfg.opcReadRxFifo.bytes d }
          responses := s.responses ++ [(s.nextTicket, .ok (.list (s.radio.rxList ++ [d])))]
          nextTicket := s.nextTicket + 1
          spiIn := rest, pollLimits := t.pollLimits, draws := t.draws }

/-- R128: the two length bytes, most significant first, become the number of bytes the handler will read; at any other moment they change nothing (log entry 22). -/
def Obligations.RxLenValue : Prop :=
  ∀ (s : State) (hi lo : Byte),
    (s.radio.seqRdIrq = .len → exec (.rxlen hi lo) s =
      .next (s.setRadio { s.radio with seqRdIrq := .data (256 * hi.toNat + lo.toNat) }))
    ∧ (s.radio.seqRdIrq ≠ .len → exec (.rxlen hi lo) s = .next s)

/-- R290: `RD.RECEIVE` returns and empties the whole list under RXLLOCK; while it is taken the operation waits. That it is one step as it is issued when RXLLOCK is free, and that a waiting one acts later without looking at the lifecycle again, is log entry 10 (DEDUCED). -/
def Obligations.RdReceive : Prop :=
  (∀ s : State,
    (s.radio.lc ≠ .running → exec .rdReceive s = .next (s.answered (.error (.state s.radio.lc))))
    ∧ (s.radio.lc = .running → s.radio.rxlLock = .free → exec .rdReceive s =
        .next ((s.setRadio { s.radio with rxList := [] }).answered (.ok (.list s.radio.rxList))))
    ∧ (s.radio.lc = .running → s.radio.rxlLock ≠ .free → exec .rdReceive s = .next (s.issued .rdReceive))
    ∧ decodeHost [0x42, 0x00] = .ok .rdReceive)
  ∧ ∀ (s : State) (t : Nat) (b : Bool), s.findOp t = some .rdReceive →
      (s.radio.rxlLock = .free → resume t b s =
        .next ((s.setRadio { s.radio with rxList := [] }).ended t (.ok (.list s.radio.rxList))))
      ∧ (s.radio.rxlLock ≠ .free → resume t b s = .next s)

/-- R291: the rows of `RD.SHUTDOWN`, and the run in which the drain wait is over or times out and SPILOCK is free. That a row which waits changes nothing is log entry 32 (DESIGN CHOICE). -/
def Obligations.RdShutdownRuns : Prop :=
  (∀ s : State,
    (s.radio.lc ≠ .running → exec .rdShutdown s = .next (s.answered (.error (.state s.radio.lc))))
    ∧ decodeHost [0x43, 0x00] = .ok .rdShutdown
    ∧ (s.radio.lc = .running →
      exec .rdShutdown s = .next ((s.setRadio { s.radio with lc := .shut }).issued (.rdShutdown .drain)))
    ∧ ∀ b, s.FreshTicket → s.radio.txq = [] ∨ b = true → s.radio.spiLock = .free →
      resumeMany 5 s.nextTicket b ((s.setRadio { s.radio with lc := .shut }).issued (.rdShutdown .drain))
        = .next ((s.setRadio { s.radio with
            lc := .shut, shutdown := true, irqEn := false, irqPend := 0, rst := .released, spiOpen := false
            txq := [], alloc := false }).answered (.ok .none)))
  ∧ ∀ (s : State) (t : Nat) (b : Bool),
      (s.findOp t = some (.rdShutdown .drain) → s.radio.txq = [] ∨ b = true →
        resume t b s = .next (s.setOp t (.rdShutdown .flag)))
      ∧ (s.findOp t = some (.rdShutdown .drain) → s.radio.txq ≠ [] → b = false → resume t b s = .next s)
      ∧ (s.findOp t = some (.rdShutdown .flag) →
        resume t b s = .next ((s.setRadio { s.radio with shutdown := true }).setOp t (.rdShutdown .lock)))
      ∧ (s.findOp t = some (.rdShutdown .lock) → s.radio.spiLock = .free → resume t b s =
        .next ((s.setRadio { s.radio with spiLock := .held (.host t) }).setOp t (.rdShutdown .close)))
      ∧ (s.findOp t = some (.rdShutdown .lock) → s.radio.spiLock ≠ .free → resume t b s = .next s)
      ∧ (s.findOp t = some (.rdShutdown .close) → resume t b s = .next ((s.setRadio { s.radio with
          irqEn := false, irqPend := 0, rst := .released, spiOpen := false, spiLock := .free }).setOp t
            (.rdShutdown .finish)))
      ∧ (s.findOp t = some (.rdShutdown .finish) → resume t b s =
        .next ((s.setRadio { s.radio with txq := [], alloc := false }).ended t (.ok .none)))

/-- R286: while IRQ_EN = 1 IRQ_PEND gains one for each transition of IRQ from 1 to 0 and for nothing else; while IRQ_EN = 0 it gains nothing. That the detector follows the level also while IRQ_EN = 0 is the model's choice (log entry 25, DESIGN CHOICE). -/
def Obligations.IrqEdgesCounted : Prop :=
  ∀ (s : State) (levels : List Bool),
    (levels.foldl (fun s l => irqInput l s) s).radio.irqPend
      = s.radio.irqPend + (if s.radio.irqEn then fallingEdges s.radio.irqLine levels else 0)
    ∧ ∀ l rest, s.script = .irq l :: rest → step s = .next { s with
        script := rest
        radio := { s.radio with
          irqLine := l
          irqPend := if s.radio.irqEn = true ∧ s.radio.irqLine = true ∧ l = false then s.radio.irqPend + 1
            else s.radio.irqPend } }

/-- R292, R241, with R361 and R362: SPI_LOG only grows, only while SPI_OPEN = 1 and SPILOCK can be taken, and by whole blocks, a command and its status reads; so it stays a sequence of whole blocks. That a hardware reset cuts no block short is the model's choice (log entry 48, DESIGN CHOICE). -/
def Obligations.SpiDiscipline : Prop :=
  ∀ s t : State, step s = .next t →
    (∃ new, t.radio.spiLog = s.radio.spiLog ++ new
      ∧ (new ≠ [] → s.radio.spiOpen = true ∧ s.radio.spiLock = .free
          ∧ ∃ cmd k reads, PollReads s.cfg k reads ∧ new = stepLog s.cfg cmd reads))
    ∧ (HandshakeInv s → HandshakeInv t)

/-! ### Reset, isolation and invariants -/

/-- R70: the value of every element of the table after hardware reset, for every controller, however many there are (R30). -/
def Obligations.ResetValues : Prop :=
  State.reset.crc = 0xFFFF ∧ State.reset.fbCrc = 0xFFFF
  ∧ (∃ n, State.reset.uarts = List.replicate n Uart.reset)
  ∧ Uart.reset.fsCrc = 0xFFFF ∧ Uart.reset.seqScan = .hunt
  ∧ Uart.reset.seqUfRx = .stopped ∧ Uart.reset.seqUrTx = .stopped ∧ Uart.reset.seqUrRx = .stopped
  ∧ Uart.reset.lc = .unconstructed ∧ Uart.reset.run = false ∧ Uart.reset.shutReq = false
  ∧ Uart.reset.sendLock = .free ∧ Uart.reset.txLock = .free ∧ Uart.reset.rxLock = .free
  ∧ Uart.reset.uartOpen = false ∧ Uart.reset.dir = .released
  ∧ Uart.reset.rxBuf = [] ∧ Uart.reset.rxq = [] ∧ Uart.reset.txPend = [] ∧ Uart.reset.rxAcc = []
  ∧ Uart.reset.txBatch = [] ∧ Uart.reset.diag = []
  ∧ (∀ t, State.reset.seqSend t = .idle)
  ∧ State.reset.radio.seqPoll = .idle ∧ State.reset.radio.seqRdIrq = .idle ∧ State.reset.radio.seqRdTx = .stopped
  ∧ State.reset.radio.seqCons = .s0Guard ∧ State.reset.radio.lc = .unconstructed
  ∧ State.reset.radio.shutdown = false ∧ State.reset.radio.alloc = false ∧ State.reset.radio.irqEn = false
  ∧ State.reset.radio.sentAny = false ∧ State.reset.radio.spiLock = .free ∧ State.reset.radio.txqLock = .free
  ∧ State.reset.radio.rxlLock = .free ∧ State.reset.radio.spiOpen = false ∧ State.reset.radio.rst = .released
  ∧ State.reset.radio.txq = [] ∧ State.reset.radio.rxList = [] ∧ State.reset.radio.txBatchR = []
  ∧ State.reset.radio.txIdx = 0 ∧ State.reset.radio.irqPend = 0

/-- R350, R351: a hardware reset, whatever was in progress, puts every controller and the CRC unit at their reset values, and no operation in flight gets a response. What is not the block's remains (log entry 26, DESIGN CHOICE); that it falls between rows only is log entry 48 (DESIGN CHOICE). -/
def Obligations.HardResetStep : Prop :=
  ∀ (s : State) (rest : List Stimulus), s.script = .hardReset :: rest →
    step s = .next { s with
      crc := 0xFFFF, fbCrc := 0xFFFF
      uarts := s.uarts.map (fun u => { Uart.reset with lineOut := u.lineOut, lineIn := u.lineIn })
      radio := { Radio.reset with spiLog := s.radio.spiLog, irqLine := s.radio.irqLine }
      ops := [], script := rest }

/-- R30: instances share no state: what happens on one UART controller, on the radio, in the CRC unit or in the framer leaves every other UART controller as it was, and what happens on a UART controller leaves the radio and the CRC unit. -/
def Obligations.InstancesIsolated : Prop :=
  ∀ (s t : State) (e : Stimulus) (rest : List Stimulus), s.script = e :: rest → e ≠ .hardReset →
    step s = .next t →
    (∀ i : Nat, e.touches s ≠ some i → t.uarts[i]? = s.uarts[i]?)
    ∧ t.uarts.length = s.uarts.length
    ∧ ∀ i : Nat, e.touches s = some i → t.radio = s.radio ∧ t.crc = s.crc ∧ t.fbCrc = s.fbCrc

/-- The line invariant is kept by every step: every byte is put on the bus with DIR = TX (R360), DIR rests at RX (R41), and a send in progress holds SENDLOCK (R93, R192). -/
def Obligations.LineInvKept : Prop :=
  ∀ s t : State, LineInv s → step s = .next t → LineInv t

/-- Invariants of the UART controllers, each kept by every step: the scanner's (R42, R43, R182); and that a constructed controller has a legal configuration (R38), TXLOCK and RXLOCK being free between rows (R223, R224). And the configuration of a constructed controller, its mode among it, is the same after every step but a hardware reset (R30, R38). Nor does such a step bring a controller back from SHUT (R200), put a byte on the line of a closed UART or take one from it (R39), or end the rest in which a completed shutdown left it: closed, lines released, no further transmission (20_memory.md R102). -/
def Obligations.UartInvsKept : Prop :=
  (∀ s t : State, ScannerInv s → step s = .next t → ScannerInv t)
  ∧ (∀ s t : State, UartConfigInv s → step s = .next t → UartConfigInv t)
  ∧ (∀ (s t : State) (i : Nat) (u : Uart), step s = .next t → (∀ rest, s.script ≠ .hardReset :: rest) →
      s.uarts[i]? = some u → u.lc ≠ .unconstructed →
      ∃ v : Uart, t.uarts[i]? = some v ∧ v.lc ≠ .unconstructed ∧ v.mode = u.mode ∧ v.baud = u.baud
        ∧ v.databits = u.databits ∧ v.stopbits = u.stopbits ∧ v.parity = u.parity)
  ∧ ∀ (s t : State) (i : Nat) (u : Uart), LineInv s → step s = .next t → (∀ rest, s.script ≠ .hardReset :: rest) →
      s.uarts[i]? = some u →
      ∃ v : Uart, t.uarts[i]? = some v ∧ (u.lc = .shut → v.lc = .shut)
        ∧ (u.uartOpen = false → v.lineOut = u.lineOut ∧ v.lineIn = u.lineIn)
        ∧ (u.Terminated → v.Terminated)

/-- Two invariants of the radio, each kept by every step: the singleton guard (R261), the extent of SPILOCK (R291), and IRQ_EN = 0 until S7 of a construction sets it and after a shutdown has closed the port (R267, R291); and the bounds on its queues and tables (R62, R63, R64). That SPILOCK is held between rows by a shutdown only, and SEQ_POLL is IDLE there, rests on a radio step being one row (log entry 13, DEDUCED). -/
def Obligations.RadioInvsKept : Prop :=
  (∀ s t : State, GuardInv s → step s = .next t → GuardInv t)
  ∧ ∀ s t : State, RadioDataInv s → step s = .next t → RadioDataInv t

/-- The state after reset meets every invariant. -/
def Obligations.ResetMeetsInvariants : Prop :=
  ScannerInv State.reset ∧ LineInv State.reset ∧ UartConfigInv State.reset ∧ GuardInv State.reset
  ∧ RadioDataInv State.reset ∧ HandshakeInv State.reset
end

