-- ==== Sys2Proof/Laws/State.lean ====
section
/-! SUPPORT. One lemma for each field of State under each named update, so that no proof unfolds a record update. -/

namespace Sys2Proof.Machine

variable (s : State)

/-! ### setUart -/

@[simp] theorem State.setUart_cfg (i : Nat) (u : Uart) : (s.setUart i u).cfg = s.cfg := rfl
@[simp] theorem State.setUart_crc (i : Nat) (u : Uart) : (s.setUart i u).crc = s.crc := rfl
@[simp] theorem State.setUart_fbCrc (i : Nat) (u : Uart) : (s.setUart i u).fbCrc = s.fbCrc := rfl
@[simp] theorem State.setUart_uarts (i : Nat) (u : Uart) : (s.setUart i u).uarts = s.uarts.set i u := rfl
@[simp] theorem State.setUart_radio (i : Nat) (u : Uart) : (s.setUart i u).radio = s.radio := rfl
@[simp] theorem State.setUart_ops (i : Nat) (u : Uart) : (s.setUart i u).ops = s.ops := rfl
@[simp] theorem State.setUart_responses (i : Nat) (u : Uart) : (s.setUart i u).responses = s.responses := rfl
@[simp] theorem State.setUart_nextTicket (i : Nat) (u : Uart) : (s.setUart i u).nextTicket = s.nextTicket := rfl
@[simp] theorem State.setUart_script (i : Nat) (u : Uart) : (s.setUart i u).script = s.script := rfl
@[simp] theorem State.setUart_spiIn (i : Nat) (u : Uart) : (s.setUart i u).spiIn = s.spiIn := rfl
@[simp] theorem State.setUart_pollLimits (i : Nat) (u : Uart) : (s.setUart i u).pollLimits = s.pollLimits := rfl
@[simp] theorem State.setUart_draws (i : Nat) (u : Uart) : (s.setUart i u).draws = s.draws := rfl

/-! ### setRadio -/

@[simp] theorem State.setRadio_cfg (r : Radio) : (s.setRadio r).cfg = s.cfg := rfl
@[simp] theorem State.setRadio_crc (r : Radio) : (s.setRadio r).crc = s.crc := rfl
@[simp] theorem State.setRadio_fbCrc (r : Radio) : (s.setRadio r).fbCrc = s.fbCrc := rfl
@[simp] theorem State.setRadio_uarts (r : Radio) : (s.setRadio r).uarts = s.uarts := rfl
@[simp] theorem State.setRadio_radio (r : Radio) : (s.setRadio r).radio = r := rfl
@[simp] theorem State.setRadio_ops (r : Radio) : (s.setRadio r).ops = s.ops := rfl
@[simp] theorem State.setRadio_responses (r : Radio) : (s.setRadio r).responses = s.responses := rfl
@[simp] theorem State.setRadio_nextTicket (r : Radio) : (s.setRadio r).nextTicket = s.nextTicket := rfl
@[simp] theorem State.setRadio_script (r : Radio) : (s.setRadio r).script = s.script := rfl
@[simp] theorem State.setRadio_spiIn (r : Radio) : (s.setRadio r).spiIn = s.spiIn := rfl
@[simp] theorem State.setRadio_pollLimits (r : Radio) : (s.setRadio r).pollLimits = s.pollLimits := rfl
@[simp] theorem State.setRadio_draws (r : Radio) : (s.setRadio r).draws = s.draws := rfl

/-! ### setCrc -/

@[simp] theorem State.setCrc_cfg (c : Word16) : (s.setCrc c).cfg = s.cfg := rfl
@[simp] theorem State.setCrc_crc (c : Word16) : (s.setCrc c).crc = c := rfl
@[simp] theorem State.setCrc_fbCrc (c : Word16) : (s.setCrc c).fbCrc = s.fbCrc := rfl
@[simp] theorem State.setCrc_uarts (c : Word16) : (s.setCrc c).uarts = s.uarts := rfl
@[simp] theorem State.setCrc_radio (c : Word16) : (s.setCrc c).radio = s.radio := rfl
@[simp] theorem State.setCrc_ops (c : Word16) : (s.setCrc c).ops = s.ops := rfl
@[simp] theorem State.setCrc_responses (c : Word16) : (s.setCrc c).responses = s.responses := rfl
@[simp] theorem State.setCrc_nextTicket (c : Word16) : (s.setCrc c).nextTicket = s.nextTicket := rfl
@[simp] theorem State.setCrc_script (c : Word16) : (s.setCrc c).script = s.script := rfl
@[simp] theorem State.setCrc_spiIn (c : Word16) : (s.setCrc c).spiIn = s.spiIn := rfl
@[simp] theorem State.setCrc_pollLimits (c : Word16) : (s.setCrc c).pollLimits = s.pollLimits := rfl
@[simp] theorem State.setCrc_draws (c : Word16) : (s.setCrc c).draws = s.draws := rfl

/-! ### accept -/

@[simp] theorem State.accept_cfg : s.accept.cfg = s.cfg := rfl
@[simp] theorem State.accept_crc : s.accept.crc = s.crc := rfl
@[simp] theorem State.accept_fbCrc : s.accept.fbCrc = s.fbCrc := rfl
@[simp] theorem State.accept_uarts : s.accept.uarts = s.uarts := rfl
@[simp] theorem State.accept_radio : s.accept.radio = s.radio := rfl
@[simp] theorem State.accept_ops : s.accept.ops = s.ops := rfl
@[simp] theorem State.accept_responses : s.accept.responses = s.responses := rfl
@[simp] theorem State.accept_nextTicket : s.accept.nextTicket = s.nextTicket + 1 := rfl
@[simp] theorem State.accept_script : s.accept.script = s.script := rfl
@[simp] theorem State.accept_spiIn : s.accept.spiIn = s.spiIn := rfl
@[simp] theorem State.accept_pollLimits : s.accept.pollLimits = s.pollLimits := rfl
@[simp] theorem State.accept_draws : s.accept.draws = s.draws := rfl

/-! ### respond -/

@[simp] theorem State.respond_cfg (t : Nat) (r : Response) : (s.respond t r).cfg = s.cfg := rfl
@[simp] theorem State.respond_crc (t : Nat) (r : Response) : (s.respond t r).crc = s.crc := rfl
@[simp] theorem State.respond_fbCrc (t : Nat) (r : Response) : (s.respond t r).fbCrc = s.fbCrc := rfl
@[simp] theorem State.respond_uarts (t : Nat) (r : Response) : (s.respond t r).uarts = s.uarts := rfl
@[simp] theorem State.respond_radio (t : Nat) (r : Response) : (s.respond t r).radio = s.radio := rfl
@[simp] theorem State.respond_ops (t : Nat) (r : Response) : (s.respond t r).ops = s.ops := rfl
@[simp] theorem State.respond_responses (t : Nat) (r : Response) : (s.respond t r).responses = s.responses ++ [(t, r)] := rfl
@[simp] theorem State.respond_nextTicket (t : Nat) (r : Response) : (s.respond t r).nextTicket = s.nextTicket := rfl
@[simp] theorem State.respond_script (t : Nat) (r : Response) : (s.respond t r).script = s.script := rfl
@[simp] theorem State.respond_spiIn (t : Nat) (r : Response) : (s.respond t r).spiIn = s.spiIn := rfl
@[simp] theorem State.respond_pollLimits (t : Nat) (r : Response) : (s.respond t r).pollLimits = s.pollLimits := rfl
@[simp] theorem State.respond_draws (t : Nat) (r : Response) : (s.respond t r).draws = s.draws := rfl

/-! ### addOp -/

@[simp] theorem State.addOp_cfg (t : Nat) (op : HostOp) : (s.addOp t op).cfg = s.cfg := rfl
@[simp] theorem State.addOp_crc (t : Nat) (op : HostOp) : (s.addOp t op).crc = s.crc := rfl
@[simp] theorem State.addOp_fbCrc (t : Nat) (op : HostOp) : (s.addOp t op).fbCrc = s.fbCrc := rfl
@[simp] theorem State.addOp_uarts (t : Nat) (op : HostOp) : (s.addOp t op).uarts = s.uarts := rfl
@[simp] theorem State.addOp_radio (t : Nat) (op : HostOp) : (s.addOp t op).radio = s.radio := rfl
@[simp] theorem State.addOp_ops (t : Nat) (op : HostOp) : (s.addOp t op).ops = s.ops ++ [(t, op)] := rfl
@[simp] theorem State.addOp_responses (t : Nat) (op : HostOp) : (s.addOp t op).responses = s.responses := rfl
@[simp] theorem State.addOp_nextTicket (t : Nat) (op : HostOp) : (s.addOp t op).nextTicket = s.nextTicket := rfl
@[simp] theorem State.addOp_script (t : Nat) (op : HostOp) : (s.addOp t op).script = s.script := rfl
@[simp] theorem State.addOp_spiIn (t : Nat) (op : HostOp) : (s.addOp t op).spiIn = s.spiIn := rfl
@[simp] theorem State.addOp_pollLimits (t : Nat) (op : HostOp) : (s.addOp t op).pollLimits = s.pollLimits := rfl
@[simp] theorem State.addOp_draws (t : Nat) (op : HostOp) : (s.addOp t op).draws = s.draws := rfl

/-! ### setOp -/

@[simp] theorem State.setOp_cfg (t : Nat) (op : HostOp) : (s.setOp t op).cfg = s.cfg := rfl
@[simp] theorem State.setOp_crc (t : Nat) (op : HostOp) : (s.setOp t op).crc = s.crc := rfl
@[simp] theorem State.setOp_fbCrc (t : Nat) (op : HostOp) : (s.setOp t op).fbCrc = s.fbCrc := rfl
@[simp] theorem State.setOp_uarts (t : Nat) (op : HostOp) : (s.setOp t op).uarts = s.uarts := rfl
@[simp] theorem State.setOp_radio (t : Nat) (op : HostOp) : (s.setOp t op).radio = s.radio := rfl
@[simp] theorem State.setOp_ops (t : Nat) (op : HostOp) : (s.setOp t op).ops = s.ops.map (fun e => if e.1 = t then (t, op) else e) := rfl
@[simp] theorem State.setOp_responses (t : Nat) (op : HostOp) : (s.setOp t op).responses = s.responses := rfl
@[simp] theorem State.setOp_nextTicket (t : Nat) (op : HostOp) : (s.setOp t op).nextTicket = s.nextTicket := rfl
@[simp] theorem State.setOp_script (t : Nat) (op : HostOp) : (s.setOp t op).script = s.script := rfl
@[simp] theorem State.setOp_spiIn (t : Nat) (op : HostOp) : (s.setOp t op).spiIn = s.spiIn := rfl
@[simp] theorem State.setOp_pollLimits (t : Nat) (op : HostOp) : (s.setOp t op).pollLimits = s.pollLimits := rfl
@[simp] theorem State.setOp_draws (t : Nat) (op : HostOp) : (s.setOp t op).draws = s.draws := rfl

/-! ### dropOp -/

@[simp] theorem State.dropOp_cfg (t : Nat) : (s.dropOp t).cfg = s.cfg := rfl
@[simp] theorem State.dropOp_crc (t : Nat) : (s.dropOp t).crc = s.crc := rfl
@[simp] theorem State.dropOp_fbCrc (t : Nat) : (s.dropOp t).fbCrc = s.fbCrc := rfl
@[simp] theorem State.dropOp_uarts (t : Nat) : (s.dropOp t).uarts = s.uarts := rfl
@[simp] theorem State.dropOp_radio (t : Nat) : (s.dropOp t).radio = s.radio := rfl
@[simp] theorem State.dropOp_ops (t : Nat) : (s.dropOp t).ops = s.ops.filter (fun e => e.1 != t) := rfl
@[simp] theorem State.dropOp_responses (t : Nat) : (s.dropOp t).responses = s.responses := rfl
@[simp] theorem State.dropOp_nextTicket (t : Nat) : (s.dropOp t).nextTicket = s.nextTicket := rfl
@[simp] theorem State.dropOp_script (t : Nat) : (s.dropOp t).script = s.script := rfl
@[simp] theorem State.dropOp_spiIn (t : Nat) : (s.dropOp t).spiIn = s.spiIn := rfl
@[simp] theorem State.dropOp_pollLimits (t : Nat) : (s.dropOp t).pollLimits = s.pollLimits := rfl
@[simp] theorem State.dropOp_draws (t : Nat) : (s.dropOp t).draws = s.draws := rfl

/-! ### raise -/

@[simp] theorem State.raise_cfg (t : Nat) (e : Err) : (s.raise t e).cfg = s.cfg := rfl
@[simp] theorem State.raise_crc (t : Nat) (e : Err) : (s.raise t e).crc = s.crc := rfl
@[simp] theorem State.raise_fbCrc (t : Nat) (e : Err) : (s.raise t e).fbCrc = s.fbCrc := rfl
@[simp] theorem State.raise_uarts (t : Nat) (e : Err) : (s.raise t e).uarts = s.uarts := rfl
@[simp] theorem State.raise_radio (t : Nat) (e : Err) : (s.raise t e).radio = s.radio := rfl
@[simp] theorem State.raise_ops (t : Nat) (e : Err) : (s.raise t e).ops = s.ops := rfl
@[simp] theorem State.raise_responses (t : Nat) (e : Err) : (s.raise t e).responses = s.responses ++ [(t, .error e)] := rfl
@[simp] theorem State.raise_nextTicket (t : Nat) (e : Err) : (s.raise t e).nextTicket = s.nextTicket := rfl
@[simp] theorem State.raise_script (t : Nat) (e : Err) : (s.raise t e).script = s.script := rfl
@[simp] theorem State.raise_spiIn (t : Nat) (e : Err) : (s.raise t e).spiIn = s.spiIn := rfl
@[simp] theorem State.raise_pollLimits (t : Nat) (e : Err) : (s.raise t e).pollLimits = s.pollLimits := rfl
@[simp] theorem State.raise_draws (t : Nat) (e : Err) : (s.raise t e).draws = s.draws := rfl

/-! ### answer -/

@[simp] theorem State.answer_cfg (t : Nat) (r : Result) : (s.answer t r).cfg = s.cfg := rfl
@[simp] theorem State.answer_crc (t : Nat) (r : Result) : (s.answer t r).crc = s.crc := rfl
@[simp] theorem State.answer_fbCrc (t : Nat) (r : Result) : (s.answer t r).fbCrc = s.fbCrc := rfl
@[simp] theorem State.answer_uarts (t : Nat) (r : Result) : (s.answer t r).uarts = s.uarts := rfl
@[simp] theorem State.answer_radio (t : Nat) (r : Result) : (s.answer t r).radio = s.radio := rfl
@[simp] theorem State.answer_ops (t : Nat) (r : Result) : (s.answer t r).ops = s.ops := rfl
@[simp] theorem State.answer_responses (t : Nat) (r : Result) : (s.answer t r).responses = s.responses ++ [(t, .ok r)] := rfl
@[simp] theorem State.answer_nextTicket (t : Nat) (r : Result) : (s.answer t r).nextTicket = s.nextTicket := rfl
@[simp] theorem State.answer_script (t : Nat) (r : Result) : (s.answer t r).script = s.script := rfl
@[simp] theorem State.answer_spiIn (t : Nat) (r : Result) : (s.answer t r).spiIn = s.spiIn := rfl
@[simp] theorem State.answer_pollLimits (t : Nat) (r : Result) : (s.answer t r).pollLimits = s.pollLimits := rfl
@[simp] theorem State.answer_draws (t : Nat) (r : Result) : (s.answer t r).draws = s.draws := rfl

/-! ### abort -/

@[simp] theorem State.abort_cfg (t : Nat) (e : Err) : (s.abort t e).cfg = s.cfg := rfl
@[simp] theorem State.abort_crc (t : Nat) (e : Err) : (s.abort t e).crc = s.crc := rfl
@[simp] theorem State.abort_fbCrc (t : Nat) (e : Err) : (s.abort t e).fbCrc = s.fbCrc := rfl
@[simp] theorem State.abort_uarts (t : Nat) (e : Err) : (s.abort t e).uarts = s.uarts := rfl
@[simp] theorem State.abort_radio (t : Nat) (e : Err) : (s.abort t e).radio = s.radio := rfl
@[simp] theorem State.abort_ops (t : Nat) (e : Err) : (s.abort t e).ops = s.ops.filter (fun e => e.1 != t) := rfl
@[simp] theorem State.abort_responses (t : Nat) (e : Err) : (s.abort t e).responses = s.responses ++ [(t, .error e)] := rfl
@[simp] theorem State.abort_nextTicket (t : Nat) (e : Err) : (s.abort t e).nextTicket = s.nextTicket := rfl
@[simp] theorem State.abort_script (t : Nat) (e : Err) : (s.abort t e).script = s.script := rfl
@[simp] theorem State.abort_spiIn (t : Nat) (e : Err) : (s.abort t e).spiIn = s.spiIn := rfl
@[simp] theorem State.abort_pollLimits (t : Nat) (e : Err) : (s.abort t e).pollLimits = s.pollLimits := rfl
@[simp] theorem State.abort_draws (t : Nat) (e : Err) : (s.abort t e).draws = s.draws := rfl

/-! ### complete -/

@[simp] theorem State.complete_cfg (t : Nat) (r : Result) : (s.complete t r).cfg = s.cfg := rfl
@[simp] theorem State.complete_crc (t : Nat) (r : Result) : (s.complete t r).crc = s.crc := rfl
@[simp] theorem State.complete_fbCrc (t : Nat) (r : Result) : (s.complete t r).fbCrc = s.fbCrc := rfl
@[simp] theorem State.complete_uarts (t : Nat) (r : Result) : (s.complete t r).uarts = s.uarts := rfl
@[simp] theorem State.complete_radio (t : Nat) (r : Result) : (s.complete t r).radio = s.radio := rfl
@[simp] theorem State.complete_ops (t : Nat) (r : Result) : (s.complete t r).ops = s.ops.filter (fun e => e.1 != t) := rfl
@[simp] theorem State.complete_responses (t : Nat) (r : Result) : (s.complete t r).responses = s.responses ++ [(t, .ok r)] := rfl
@[simp] theorem State.complete_nextTicket (t : Nat) (r : Result) : (s.complete t r).nextTicket = s.nextTicket := rfl
@[simp] theorem State.complete_script (t : Nat) (r : Result) : (s.complete t r).script = s.script := rfl
@[simp] theorem State.complete_spiIn (t : Nat) (r : Result) : (s.complete t r).spiIn = s.spiIn := rfl
@[simp] theorem State.complete_pollLimits (t : Nat) (r : Result) : (s.complete t r).pollLimits = s.pollLimits := rfl
@[simp] theorem State.complete_draws (t : Nat) (r : Result) : (s.complete t r).draws = s.draws := rfl

/-! ### setPoll -/

@[simp] theorem State.setPoll_cfg (p : PollSeq) : (s.setPoll p).cfg = s.cfg := rfl
@[simp] theorem State.setPoll_crc (p : PollSeq) : (s.setPoll p).crc = s.crc := rfl
@[simp] theorem State.setPoll_fbCrc (p : PollSeq) : (s.setPoll p).fbCrc = s.fbCrc := rfl
@[simp] theorem State.setPoll_uarts (p : PollSeq) : (s.setPoll p).uarts = s.uarts := rfl
@[simp] theorem State.setPoll_radio (p : PollSeq) : (s.setPoll p).radio = { s.radio with seqPoll := p } := rfl
@[simp] theorem State.setPoll_ops (p : PollSeq) : (s.setPoll p).ops = s.ops := rfl
@[simp] theorem State.setPoll_responses (p : PollSeq) : (s.setPoll p).responses = s.responses := rfl
@[simp] theorem State.setPoll_nextTicket (p : PollSeq) : (s.setPoll p).nextTicket = s.nextTicket := rfl
@[simp] theorem State.setPoll_script (p : PollSeq) : (s.setPoll p).script = s.script := rfl
@[simp] theorem State.setPoll_spiIn (p : PollSeq) : (s.setPoll p).spiIn = s.spiIn := rfl
@[simp] theorem State.setPoll_pollLimits (p : PollSeq) : (s.setPoll p).pollLimits = s.pollLimits := rfl
@[simp] theorem State.setPoll_draws (p : PollSeq) : (s.setPoll p).draws = s.draws := rfl

/-! ### endStep -/

@[simp] theorem State.endStep_cfg (r : StepRes) : (s.endStep r).cfg = s.cfg := rfl
@[simp] theorem State.endStep_crc (r : StepRes) : (s.endStep r).crc = s.crc := rfl
@[simp] theorem State.endStep_fbCrc (r : StepRes) : (s.endStep r).fbCrc = s.fbCrc := rfl
@[simp] theorem State.endStep_uarts (r : StepRes) : (s.endStep r).uarts = s.uarts := rfl
@[simp] theorem State.endStep_radio (r : StepRes) : (s.endStep r).radio = { s.radio with seqPoll := .idle, res := r } := rfl
@[simp] theorem State.endStep_ops (r : StepRes) : (s.endStep r).ops = s.ops := rfl
@[simp] theorem State.endStep_responses (r : StepRes) : (s.endStep r).responses = s.responses := rfl
@[simp] theorem State.endStep_nextTicket (r : StepRes) : (s.endStep r).nextTicket = s.nextTicket := rfl
@[simp] theorem State.endStep_script (r : StepRes) : (s.endStep r).script = s.script := rfl
@[simp] theorem State.endStep_spiIn (r : StepRes) : (s.endStep r).spiIn = s.spiIn := rfl
@[simp] theorem State.endStep_pollLimits (r : StepRes) : (s.endStep r).pollLimits = s.pollLimits := rfl
@[simp] theorem State.endStep_draws (r : StepRes) : (s.endStep r).draws = s.draws := rfl

/-! ### setCons -/

@[simp] theorem State.setCons_cfg (q : ConsSeq) : (s.setCons q).cfg = s.cfg := rfl
@[simp] theorem State.setCons_crc (q : ConsSeq) : (s.setCons q).crc = s.crc := rfl
@[simp] theorem State.setCons_fbCrc (q : ConsSeq) : (s.setCons q).fbCrc = s.fbCrc := rfl
@[simp] theorem State.setCons_uarts (q : ConsSeq) : (s.setCons q).uarts = s.uarts := rfl
@[simp] theorem State.setCons_radio (q : ConsSeq) : (s.setCons q).radio = { s.radio with seqCons := q } := rfl
@[simp] theorem State.setCons_ops (q : ConsSeq) : (s.setCons q).ops = s.ops := rfl
@[simp] theorem State.setCons_responses (q : ConsSeq) : (s.setCons q).responses = s.responses := rfl
@[simp] theorem State.setCons_nextTicket (q : ConsSeq) : (s.setCons q).nextTicket = s.nextTicket := rfl
@[simp] theorem State.setCons_script (q : ConsSeq) : (s.setCons q).script = s.script := rfl
@[simp] theorem State.setCons_spiIn (q : ConsSeq) : (s.setCons q).spiIn = s.spiIn := rfl
@[simp] theorem State.setCons_pollLimits (q : ConsSeq) : (s.setCons q).pollLimits = s.pollLimits := rfl
@[simp] theorem State.setCons_draws (q : ConsSeq) : (s.setCons q).draws = s.draws := rfl

/-! ### setRdTx -/

@[simp] theorem State.setRdTx_cfg (q : RdTxSeq) : (s.setRdTx q).cfg = s.cfg := rfl
@[simp] theorem State.setRdTx_crc (q : RdTxSeq) : (s.setRdTx q).crc = s.crc := rfl
@[simp] theorem State.setRdTx_fbCrc (q : RdTxSeq) : (s.setRdTx q).fbCrc = s.fbCrc := rfl
@[simp] theorem State.setRdTx_uarts (q : RdTxSeq) : (s.setRdTx q).uarts = s.uarts := rfl
@[simp] theorem State.setRdTx_radio (q : RdTxSeq) : (s.setRdTx q).radio = { s.radio with seqRdTx := q } := rfl
@[simp] theorem State.setRdTx_ops (q : RdTxSeq) : (s.setRdTx q).ops = s.ops := rfl
@[simp] theorem State.setRdTx_responses (q : RdTxSeq) : (s.setRdTx q).responses = s.responses := rfl
@[simp] theorem State.setRdTx_nextTicket (q : RdTxSeq) : (s.setRdTx q).nextTicket = s.nextTicket := rfl
@[simp] theorem State.setRdTx_script (q : RdTxSeq) : (s.setRdTx q).script = s.script := rfl
@[simp] theorem State.setRdTx_spiIn (q : RdTxSeq) : (s.setRdTx q).spiIn = s.spiIn := rfl
@[simp] theorem State.setRdTx_pollLimits (q : RdTxSeq) : (s.setRdTx q).pollLimits = s.pollLimits := rfl
@[simp] theorem State.setRdTx_draws (q : RdTxSeq) : (s.setRdTx q).draws = s.draws := rfl

/-! ### setRdIrq -/

@[simp] theorem State.setRdIrq_cfg (q : RdIrqSeq) : (s.setRdIrq q).cfg = s.cfg := rfl
@[simp] theorem State.setRdIrq_crc (q : RdIrqSeq) : (s.setRdIrq q).crc = s.crc := rfl
@[simp] theorem State.setRdIrq_fbCrc (q : RdIrqSeq) : (s.setRdIrq q).fbCrc = s.fbCrc := rfl
@[simp] theorem State.setRdIrq_uarts (q : RdIrqSeq) : (s.setRdIrq q).uarts = s.uarts := rfl
@[simp] theorem State.setRdIrq_radio (q : RdIrqSeq) : (s.setRdIrq q).radio = { s.radio with seqRdIrq := q } := rfl
@[simp] theorem State.setRdIrq_ops (q : RdIrqSeq) : (s.setRdIrq q).ops = s.ops := rfl
@[simp] theorem State.setRdIrq_responses (q : RdIrqSeq) : (s.setRdIrq q).responses = s.responses := rfl
@[simp] theorem State.setRdIrq_nextTicket (q : RdIrqSeq) : (s.setRdIrq q).nextTicket = s.nextTicket := rfl
@[simp] theorem State.setRdIrq_script (q : RdIrqSeq) : (s.setRdIrq q).script = s.script := rfl
@[simp] theorem State.setRdIrq_spiIn (q : RdIrqSeq) : (s.setRdIrq q).spiIn = s.spiIn := rfl
@[simp] theorem State.setRdIrq_pollLimits (q : RdIrqSeq) : (s.setRdIrq q).pollLimits = s.pollLimits := rfl
@[simp] theorem State.setRdIrq_draws (q : RdIrqSeq) : (s.setRdIrq q).draws = s.draws := rfl

/-- Every UART controller instance of the reset state is as after reset, however many there are. -/
theorem State.mem_reset_uarts (u : Uart) (h : u ∈ State.reset.uarts) : u = Uart.reset :=
  List.eq_of_mem_replicate h

end Sys2Proof.Machine
end

