-- ==== Sys2Proof/Laws/Host.lean ====
section
/-! SUPPORT. Host operations: how an operation is issued, found, moved and ended, what an operation on a UART controller does before its own effect, and which row `resume` takes. -/

namespace Sys2Proof.Machine

/-! ### Issue and answer -/

theorem State.answer_accept (s : State) (t : Nat) (r : Result) (h : t = s.nextTicket) :
    s.accept.answer t r = s.answered (.ok r) := by subst h; rfl

theorem State.raise_accept (s : State) (t : Nat) (e : Err) (h : t = s.nextTicket) :
    s.accept.raise t e = s.answered (.error e) := by subst h; rfl

theorem State.addOp_accept (s : State) (t : Nat) (op : HostOp) (h : t = s.nextTicket) :
    s.accept.addOp t op = s.issued op := by subst h; rfl

/-- A freshly issued operation is found under its ticket. -/
theorem State.findOp_issued (s : State) (op : HostOp) (h : s.FreshTicket) :
    (s.issued op).findOp s.nextTicket = some op := by
  have : s.ops.find? (fun e => e.1 == s.nextTicket) = none := by
    rw [List.find?_eq_none]
    intro e he
    simpa using h e he
  simp [State.findOp, State.issued, List.find?_append, this]

/-- Moving a freshly issued operation changes that operation only. -/
theorem State.setOp_issued (s : State) (op op' : HostOp) (h : s.FreshTicket) :
    (s.issued op).setOp s.nextTicket op' = s.issued op' := by
  have : s.ops.map (fun e => if e.1 = s.nextTicket then (s.nextTicket, op') else e) = s.ops := by
    conv_rhs => rw [← List.map_id s.ops]
    refine List.map_congr_left fun e he => ?_
    simp [h e he]
  simp [State.setOp, State.issued, this]

/-- Ending a freshly issued operation leaves its response only. -/
theorem State.ended_issued (s : State) (op : HostOp) (r : Response) (h : s.FreshTicket) :
    (s.issued op).ended s.nextTicket r = s.answered r := by
  have : s.ops.filter (fun e => e.1 != s.nextTicket) = s.ops := by
    rw [List.filter_eq_self]
    intro e he
    simpa using h e he
  simp [State.ended, State.issued, State.answered, this]

theorem State.complete_eq_ended (s : State) (t : Nat) (r : Result) : s.complete t r = s.ended t (.ok r) := rfl

theorem State.abort_eq_ended (s : State) (t : Nat) (e : Err) : s.abort t e = s.ended t (.error e) := rfl

/-- A moved operation is found in its new row. -/
theorem State.findOp_setOp (s : State) (t : Nat) (op op' : HostOp) (h : s.findOp t = some op) :
    (s.setOp t op').findOp t = some op' := by
  have hf : ∀ l : List (Nat × HostOp), (l.find? (fun e => e.1 == t)).isSome →
      ((l.map (fun e => if e.1 = t then (t, op') else e)).find? (fun e => e.1 == t)) = some (t, op') := by
    intro l
    induction l with
    | nil => simp
    | cons e l ih =>
      intro hs
      by_cases he : e.1 = t
      · simp [he]
      · simp only [List.map_cons, he, if_false]
        rw [List.find?_cons_of_neg (by simpa using he)]
        exact ih (by simpa [List.find?_cons, he] using hs)
  have : (s.ops.find? (fun e => e.1 == t)).isSome := by
    unfold State.findOp at h
    split at h
    · simp_all
    · simp at h
  simp [State.findOp, State.setOp, hf _ this]

/-- A found operation is in progress. -/
theorem State.findOp_mem (s : State) (t : Nat) (op : HostOp) (h : s.findOp t = some op) : (t, op) ∈ s.ops := by
  unfold State.findOp at h
  split at h
  · rename_i e he
    have h1 := List.mem_of_find?_eq_some he
    have h2 := List.find?_some he
    simp at h2 h
    subst h2 h
    exact h1
  · simp at h

/-! ### Operations on a UART controller -/

theorem onUart_some (inst : Byte) (s : State) (u : Uart) (k : Nat → Nat → Uart → State → Out)
    (h : s.uarts[inst.toNat]? = some u) : onUart inst s k = k s.nextTicket inst.toNat u s.accept := by
  simp [onUart, h]

theorem onUart_none (inst : Byte) (s : State) (k : Nat → Nat → Uart → State → Out)
    (h : s.uarts.length ≤ inst.toNat) : onUart inst s k = .next (s.answered (.error .illegal)) := by
  simp [onUart, List.getElem?_eq_none h]
  rfl

theorem whenReady_yes (m : Mode) (t : Nat) (u : Uart) (s : State) (k : Out) (hl : u.lc = .running) (hm : u.mode = m) :
    whenReady m t u s k = k := by simp [whenReady, Uart.ready, hl, hm]

theorem whenReady_no (m : Mode) (u : Uart) (s : State) (k : Out) (h : u.lc ≠ .running ∨ u.mode ≠ m) :
    whenReady m s.nextTicket u s.accept k = .next (s.answered (.error (.state u.lc.asLc))) := by
  have : u.ready m = false := by
    simp only [Uart.ready, Bool.and_eq_false_iff, beq_eq_false_iff_ne]
    exact h
  simp [whenReady, this]
  rfl

theorem whenRadioRunning_yes (t : Nat) (s : State) (k : Out) (h : s.radio.lc = .running) :
    whenRadioRunning t s k = k := by simp [whenRadioRunning, h]

theorem whenRadioRunning_no (s : State) (k : Out) (h : s.radio.lc ≠ .running) :
    whenRadioRunning s.nextTicket s.accept k = .next (s.answered (.error (.state s.radio.lc))) := by
  simp [whenRadioRunning, h]
  rfl

/-- The controller that was just written is the one read back. -/
theorem State.setUart_get (s : State) (i : Nat) (u u' : Uart) (h : s.uarts[i]? = some u) :
    (s.setUart i u').uarts[i]? = some u' := by
  have := (List.getElem?_eq_some_iff.1 h).1
  simp [this]

theorem State.setUart_setUart (s : State) (i : Nat) (u u' : Uart) :
    (s.setUart i u).setUart i u' = s.setUart i u' := by
  simp [State.setUart]

theorem State.setUart_self (s : State) (i : Nat) (u : Uart) (h : s.uarts[i]? = some u) : s.setUart i u = s := by
  obtain ⟨hi, hu⟩ := List.getElem?_eq_some_iff.1 h
  have : s.uarts.set i u = s.uarts := by rw [← hu]; exact List.set_getElem_self hi
  simp [State.setUart, this]

/-! ### Later rows -/

theorem resume_none (t : Nat) (b : Bool) (s : State) (h : s.findOp t = none) : resume t b s = .next s := by
  simp [resume, h]

/-- One row, then the rest. -/
theorem resumeMany_succ (n t : Nat) (b : Bool) (s s' : State) (h : resume t b s = .next s') :
    resumeMany (n + 1) t b s = resumeMany n t b s' := by simp [resumeMany, h]

theorem resumeMany_add (n m t : Nat) (b : Bool) (s s' : State) (h : resumeMany n t b s = .next s') :
    resumeMany (n + m) t b s = resumeMany m t b s' := by
  induction n generalizing s with
  | zero =>
    simp only [resumeMany, Host.Outcome.next.injEq] at h
    subst h
    simp
  | succ n ih =>
    rw [Nat.succ_add]
    simp only [resumeMany] at h ⊢
    split at h
    · exact ih _ h
    · rename_i o ho
      exact absurd h (ho s')

theorem execMany_cons (i : Instr) (is : List Instr) (s s' : State) (h : exec i s = .next s') :
    execMany (i :: is) s = execMany is s' := by simp [execMany, h]

theorem execMany_append (is js : List Instr) (s s' : State) (h : execMany is s = .next s') :
    execMany (is ++ js) s = execMany js s' := by
  induction is generalizing s with
  | nil =>
    simp only [execMany, Host.Outcome.next.injEq] at h
    subst h
    simp
  | cons i is ih =>
    simp only [List.cons_append, execMany] at h ⊢
    split at h
    · exact ih _ h
    · rename_i o ho
      exact absurd h (ho s')

theorem performMany_cons (e : Stimulus) (es : List Stimulus) (s s' : State) (h : perform e s = .next s') :
    performMany (e :: es) s = performMany es s' := by simp [performMany, h]

end Sys2Proof.Machine
end

