-- ==== Sys2Proof/Laws/Line.lean ====
section
/-! SUPPORT. The serial line: what delivering and transmitting bytes leaves. -/

namespace Sys2Proof.Machine

/-- An open UART that listens takes the bytes. -/
theorem Uart.deliver_open (c : Config) (bs : List Byte) (u : Uart) (ho : u.uartOpen = true)
    (hd : u.dir ≠ .tx ∨ c.echoInTx = true) :
    u.deliver c bs = { u with rxAvail := u.rxAvail ++ bs, lineIn := u.lineIn ++ bs } := by
  have : (u.uartOpen && (u.dir != .tx || c.echoInTx)) = true := by
    rcases hd with hd | hd <;> simp [ho, hd]
  simp [Uart.deliver, this]

/-- A closed UART, and one that transmits and does not hear itself, takes nothing. -/
theorem Uart.deliver_deaf (c : Config) (bs : List Byte) (u : Uart)
    (h : u.uartOpen = false ∨ (u.dir = .tx ∧ c.echoInTx = false)) : u.deliver c bs = u := by
  have : (u.uartOpen && (u.dir != .tx || c.echoInTx)) = false := by
    rcases h with h | ⟨h, h'⟩ <;> simp [*]
  simp [Uart.deliver, this]

/-- Everything delivery can change. -/
theorem Uart.deliver_spec (c : Config) (bs : List Byte) (u : Uart) :
    ∃ a l, u.deliver c bs = { u with rxAvail := a, lineIn := l } := by
  unfold Uart.deliver
  split
  · exact ⟨_, _, rfl⟩
  · exact ⟨_, _, rfl⟩

/-- A byte transmitted with DIR = TX by an open UART. -/
theorem Uart.tx_open (c : Config) (u : Uart) (b : Byte) (ho : u.uartOpen = true) (hd : u.dir = .tx) :
    u.tx c b = { u with
      lineOut := u.lineOut ++ [(b, .tx)]
      rxAvail := u.rxAvail ++ (if c.echoInTx then [b] else [])
      lineIn := u.lineIn ++ (if c.echoInTx then [b] else []) } := by
  cases he : c.echoInTx <;> simp [Uart.tx, Uart.deliver, ho, hd, he]

/-- A closed UART transmits nothing. -/
theorem Uart.tx_closed (c : Config) (u : Uart) (b : Byte) (h : u.uartOpen = false) : u.tx c b = u := by
  simp [Uart.tx, h]

theorem Uart.txAll_closed (c : Config) (bs : List Byte) (u : Uart) (h : u.uartOpen = false) : u.txAll c bs = u := by
  induction bs with
  | nil => rfl
  | cons b bs ih => simpa [Uart.txAll, List.foldl_cons, Uart.tx_closed c u b h] using ih

/-- Bytes transmitted with DIR = TX by an open UART. -/
theorem Uart.txAll_open (c : Config) (bs : List Byte) (u : Uart) (ho : u.uartOpen = true) (hd : u.dir = .tx) :
    u.txAll c bs = { u with
      lineOut := u.lineOut ++ bs.map (fun b => (b, Dir.tx))
      rxAvail := u.rxAvail ++ (if c.echoInTx then bs else [])
      lineIn := u.lineIn ++ (if c.echoInTx then bs else []) } := by
  induction bs generalizing u with
  | nil => simp [Uart.txAll]
  | cons b bs ih =>
    have := ih (u.tx c b) (by simp [Uart.tx_open c u b ho hd, ho]) (by simp [Uart.tx_open c u b ho hd, hd])
    simp only [Uart.txAll, List.foldl_cons] at this ⊢
    rw [this, Uart.tx_open c u b ho hd]
    cases c.echoInTx <;> simp

/-- Everything a transmitted byte can change. -/
theorem Uart.tx_spec (c : Config) (u : Uart) (b : Byte) :
    ∃ o a l, u.tx c b = { u with lineOut := u.lineOut ++ o, rxAvail := a, lineIn := l }
      ∧ (o = [] ∨ (u.uartOpen = true ∧ o = [(b, u.dir)])) := by
  by_cases ho : u.uartOpen = true
  · by_cases hd : u.dir = .tx
    · exact ⟨_, _, _, by rw [Uart.tx_open c u b ho hd], .inr ⟨ho, by rw [hd]⟩⟩
    · exact ⟨[(b, u.dir)], u.rxAvail, u.lineIn, by simp [Uart.tx, ho, hd], .inr ⟨ho, rfl⟩⟩
  · exact ⟨[], u.rxAvail, u.lineIn, by rw [Uart.tx, if_neg ho]; simp, .inl rfl⟩

/-- Everything that transmitted bytes can change. -/
theorem Uart.txAll_spec (c : Config) (bs : List Byte) (u : Uart) :
    ∃ o a l, u.txAll c bs = { u with lineOut := u.lineOut ++ o, rxAvail := a, lineIn := l }
      ∧ ∀ e ∈ o, e.2 = u.dir := by
  induction bs generalizing u with
  | nil => exact ⟨[], u.rxAvail, u.lineIn, by simp [Uart.txAll], by simp⟩
  | cons b bs ih =>
    obtain ⟨o, a, l, h, ho⟩ := Uart.tx_spec c u b
    obtain ⟨o', a', l', h', ho'⟩ := ih (u.tx c b)
    refine ⟨o ++ o', a', l', ?_, ?_⟩
    · simp only [Uart.txAll, List.foldl_cons] at h' ⊢
      rw [h', h]
      simp
    · rw [h] at ho'
      intro e he
      rcases List.mem_append.1 he with he | he
      · rcases ho with ho | ⟨-, ho⟩ <;> simp_all
      · exact ho' e he

/-- Bytes that decode as a frame are the bytes of that frame, so delivering the frame delivers them. -/
theorem decodeLine_frame (inst : Byte) (bs : List Byte) (i : Instr) (h : decodeLine inst bs = .ok i) :
    ∃ p lo hi, i = .frame inst p lo hi ∧ frameBytes p lo hi = bs := by
  have take : ∀ {n : Nat} {l p r : List Byte}, takeExact n l = .ok (p, r) → p.length = n ∧ p ++ r = l := by
    intro n l p r h
    unfold takeExact at h
    split at h
    · simp at h
      obtain ⟨rfl, rfl⟩ := h
      simp
      omega
    · simp at h
  unfold decodeLine at h
  split at h
  · split at h
    · split at h
      · rename_i hm _ p lo hi he
        simp at h
        subst h
        obtain ⟨h1, h2⟩ := take he
        exact ⟨p, lo, hi, rfl, by simp [frameBytes, lenByte, h1, ← h2, hm]⟩
      all_goals simp at h
    · simp at h
  · simp at h

end Sys2Proof.Machine
end

