-- ==== Sys2Proof/Laws/PerInstr.lean ====
section
/-! SUPPORT. Statements about every instruction, one lemma per constructor. -/

namespace Sys2Proof.Laws

/-- CODE of the format-H operations (30_encoding.md R131), by name of the row. -/
def hostCode : Instr → Option Byte
  | .crcInit => some 0x01
  | .crcUpdate _ => some 0x02
  | .crcRead => some 0x03
  | .crcSum _ => some 0x04
  | .frmBuild _ => some 0x10
  | .frmParse _ => some 0x11
  | .ufConstruct _ _ => some 0x20
  | .ufSend _ _ => some 0x21
  | .ufReadFrame _ _ => some 0x22
  | .ufShutdown _ => some 0x23
  | .urConstruct _ _ _ _ _ => some 0x30
  | .urWrite _ _ => some 0x31
  | .urRead _ => some 0x32
  | .urShutdown _ => some 0x33
  | .rdConstruct _ _ => some 0x40
  | .rdTransmit _ => some 0x41
  | .rdReceive => some 0x42
  | .rdShutdown => some 0x43
  | .ufRxStep _ => none
  | .urTxStep _ => none
  | .urRxStep _ => none
  | .rdTxStep _ => none
  | .rdIrqStep => none
  | .rcPowerUp => none
  | .rcReadStatus _ => none
  | .rcGpioCfg => none
  | .rcSetProperty _ => none
  | .rcClearTxFifo => none
  | .rcWriteTxFifo _ => none
  | .rcStartTx _ _ => none
  | .rcStartRx _ => none
  | .rcRxLen => none
  | .rcReadRxFifo _ => none
  | .frame _ _ _ _ => none
  | .rxlen _ _ => none

/-- A format-H operation's word begins with its own CODE, whatever the parameters; an operation of another kind has no CODE. -/
def HostWordCode.Statement (i : Instr) : Prop :=
  (i.isHost = true ↔ (hostCode i).isSome = true) ∧ ∀ c : Config, i.isHost = true → (encode c i).head? = hostCode i

theorem HostWordCode.crcInit : HostWordCode.Statement .crcInit :=
  ⟨⟨fun _ => rfl, fun _ => rfl⟩, fun _ _ => rfl⟩

theorem HostWordCode.crcUpdate (b : Byte) : HostWordCode.Statement (.crcUpdate b) :=
  ⟨⟨fun _ => rfl, fun _ => rfl⟩, fun _ _ => rfl⟩

theorem HostWordCode.crcRead : HostWordCode.Statement .crcRead :=
  ⟨⟨fun _ => rfl, fun _ => rfl⟩, fun _ _ => rfl⟩

theorem HostWordCode.crcSum (s : List Byte) : HostWordCode.Statement (.crcSum s) :=
  ⟨⟨fun _ => rfl, fun _ => rfl⟩, fun _ _ => rfl⟩

theorem HostWordCode.frmBuild (p : List Byte) : HostWordCode.Statement (.frmBuild p) :=
  ⟨⟨fun _ => rfl, fun _ => rfl⟩, fun _ _ => rfl⟩

theorem HostWordCode.frmParse (s : List Byte) : HostWordCode.Statement (.frmParse s) :=
  ⟨⟨fun _ => rfl, fun _ => rfl⟩, fun _ _ => rfl⟩

theorem HostWordCode.ufConstruct (inst : Byte) (baud : Word32) : HostWordCode.Statement (.ufConstruct inst baud) :=
  ⟨⟨fun _ => rfl, fun _ => rfl⟩, fun _ _ => rfl⟩

theorem HostWordCode.ufSend (inst : Byte) (p : List Byte) : HostWordCode.Statement (.ufSend inst p) :=
  ⟨⟨fun _ => rfl, fun _ => rfl⟩, fun _ _ => rfl⟩

theorem HostWordCode.ufReadFrame (inst : Byte) (t : Option Word32) : HostWordCode.Statement (.ufReadFrame inst t) :=
  ⟨⟨fun _ => rfl, fun _ => rfl⟩, fun _ _ => rfl⟩

theorem HostWordCode.ufShutdown (inst : Byte) : HostWordCode.Statement (.ufShutdown inst) :=
  ⟨⟨fun _ => rfl, fun _ => rfl⟩, fun _ _ => rfl⟩

theorem HostWordCode.urConstruct (inst : Byte) (baud : Word32) (d : Byte) (st : Byte) (p : Byte) : HostWordCode.Statement (.urConstruct inst baud d st p) :=
  ⟨⟨fun _ => rfl, fun _ => rfl⟩, fun _ _ => rfl⟩

theorem HostWordCode.urWrite (inst : Byte) (d : List Byte) : HostWordCode.Statement (.urWrite inst d) :=
  ⟨⟨fun _ => rfl, fun _ => rfl⟩, fun _ _ => rfl⟩

theorem HostWordCode.urRead (inst : Byte) : HostWordCode.Statement (.urRead inst) :=
  ⟨⟨fun _ => rfl, fun _ => rfl⟩, fun _ _ => rfl⟩

theorem HostWordCode.urShutdown (inst : Byte) : HostWordCode.Statement (.urShutdown inst) :=
  ⟨⟨fun _ => rfl, fun _ => rfl⟩, fun _ _ => rfl⟩

theorem HostWordCode.rdConstruct (ch : Word16) (ps : List PropRecord) : HostWordCode.Statement (.rdConstruct ch ps) :=
  ⟨⟨fun _ => rfl, fun _ => rfl⟩, fun _ _ => rfl⟩

theorem HostWordCode.rdTransmit (ps : List (List Byte)) : HostWordCode.Statement (.rdTransmit ps) :=
  ⟨⟨fun _ => rfl, fun _ => rfl⟩, fun _ _ => rfl⟩

theorem HostWordCode.rdReceive : HostWordCode.Statement .rdReceive :=
  ⟨⟨fun _ => rfl, fun _ => rfl⟩, fun _ _ => rfl⟩

theorem HostWordCode.rdShutdown : HostWordCode.Statement .rdShutdown :=
  ⟨⟨fun _ => rfl, fun _ => rfl⟩, fun _ _ => rfl⟩

theorem HostWordCode.ufRxStep (inst : Byte) : HostWordCode.Statement (.ufRxStep inst) :=
  ⟨⟨(nomatch ·), (nomatch ·)⟩, fun _ h => (nomatch h)⟩

theorem HostWordCode.urTxStep (inst : Byte) : HostWordCode.Statement (.urTxStep inst) :=
  ⟨⟨(nomatch ·), (nomatch ·)⟩, fun _ h => (nomatch h)⟩

theorem HostWordCode.urRxStep (inst : Byte) : HostWordCode.Statement (.urRxStep inst) :=
  ⟨⟨(nomatch ·), (nomatch ·)⟩, fun _ h => (nomatch h)⟩

theorem HostWordCode.rdTxStep (g : Bool) : HostWordCode.Statement (.rdTxStep g) :=
  ⟨⟨(nomatch ·), (nomatch ·)⟩, fun _ h => (nomatch h)⟩

theorem HostWordCode.rdIrqStep : HostWordCode.Statement .rdIrqStep :=
  ⟨⟨(nomatch ·), (nomatch ·)⟩, fun _ h => (nomatch h)⟩

theorem HostWordCode.rcPowerUp : HostWordCode.Statement .rcPowerUp :=
  ⟨⟨(nomatch ·), (nomatch ·)⟩, fun _ h => (nomatch h)⟩

theorem HostWordCode.rcReadStatus (k : Nat) : HostWordCode.Statement (.rcReadStatus k) :=
  ⟨⟨(nomatch ·), (nomatch ·)⟩, fun _ h => (nomatch h)⟩

theorem HostWordCode.rcGpioCfg : HostWordCode.Statement .rcGpioCfg :=
  ⟨⟨(nomatch ·), (nomatch ·)⟩, fun _ h => (nomatch h)⟩

theorem HostWordCode.rcSetProperty (p : PropRecord) : HostWordCode.Statement (.rcSetProperty p) :=
  ⟨⟨(nomatch ·), (nomatch ·)⟩, fun _ h => (nomatch h)⟩

theorem HostWordCode.rcClearTxFifo : HostWordCode.Statement .rcClearTxFifo :=
  ⟨⟨(nomatch ·), (nomatch ·)⟩, fun _ h => (nomatch h)⟩

theorem HostWordCode.rcWriteTxFifo (pkt : List Byte) : HostWordCode.Statement (.rcWriteTxFifo pkt) :=
  ⟨⟨(nomatch ·), (nomatch ·)⟩, fun _ h => (nomatch h)⟩

theorem HostWordCode.rcStartTx (ch : Byte) (n : Nat) : HostWordCode.Statement (.rcStartTx ch n) :=
  ⟨⟨(nomatch ·), (nomatch ·)⟩, fun _ h => (nomatch h)⟩

theorem HostWordCode.rcStartRx (ch : Byte) : HostWordCode.Statement (.rcStartRx ch) :=
  ⟨⟨(nomatch ·), (nomatch ·)⟩, fun _ h => (nomatch h)⟩

theorem HostWordCode.rcRxLen : HostWordCode.Statement .rcRxLen :=
  ⟨⟨(nomatch ·), (nomatch ·)⟩, fun _ h => (nomatch h)⟩

theorem HostWordCode.rcReadRxFifo (n : Nat) : HostWordCode.Statement (.rcReadRxFifo n) :=
  ⟨⟨(nomatch ·), (nomatch ·)⟩, fun _ h => (nomatch h)⟩

theorem HostWordCode.frame (inst : Byte) (p : List Byte) (lo hi : Byte) : HostWordCode.Statement (.frame inst p lo hi) :=
  ⟨⟨(nomatch ·), (nomatch ·)⟩, fun _ h => (nomatch h)⟩

theorem HostWordCode.rxlen (hi lo : Byte) : HostWordCode.Statement (.rxlen hi lo) :=
  ⟨⟨(nomatch ·), (nomatch ·)⟩, fun _ h => (nomatch h)⟩

end Sys2Proof.Laws
end

