-- ==== Sys2Proof/Laws/Scan.lean ====
section
/-! SUPPORT. The scanner: `SCAN` as one equation without fuel, and the byte-serial form over a concatenation; the bytes of a 16-bit value. -/

namespace Sys2Proof

@[simp] theorem word16_hi_lo (w : Word16) : word16 (hiByte w) (loByte w) = w := by
  unfold word16 hiByte loByte
  ext i hi
  simp only [BitVec.getElem_append, BitVec.getElem_extractLsb']
  split
  · simp [BitVec.getLsbD_eq_getElem hi]
  · rw [show 8 + (i - 8) = i by omega, BitVec.getLsbD_eq_getElem hi]

@[simp] theorem hiByte_word16 (hi lo : Byte) : hiByte (word16 hi lo) = hi := by
  unfold word16 hiByte
  ext i h
  have e := BitVec.getLsbD_append (x := hi) (y := lo) (i := 8 + i)
  rw [if_neg (by omega), show 8 + i - 8 = i by omega, BitVec.getLsbD_eq_getElem h] at e
  simpa using e

@[simp] theorem loByte_word16 (hi lo : Byte) : loByte (word16 hi lo) = lo := by
  unfold word16 loByte
  ext i h
  have e := BitVec.getLsbD_append (x := hi) (y := lo) (i := i)
  rw [if_pos h, BitVec.getLsbD_eq_getElem h] at e
  simpa using e

/-- A count that fits its field is read back. -/
theorem takeU16_countBytes (n : Nat) (rest : List Byte) (h : n < 65536) :
    takeU16 (countBytes n ++ rest) = .ok (BitVec.ofNat 16 n, rest) ∧ (BitVec.ofNat 16 n).toNat = n := by
  refine ⟨by simp [countBytes, u16Bytes, takeU16], by simp; omega⟩

/-- The two bytes of a count that fits are read back as the count. -/
theorem word16_count (n : Nat) (h : n < 65536) :
    (word16 (BitVec.ofNat 8 (n / 256)) (BitVec.ofNat 8 n)).toNat = n := by
  unfold word16
  rw [BitVec.toNat_append, BitVec.toNat_ofNat, BitVec.toNat_ofNat, ← Nat.shiftLeft_add_eq_or_of_lt (by omega),
    Nat.shiftLeft_eq]
  omega

/-- `BYTES` is read back, whatever follows it. -/
theorem takeBytes_bytesOperand (b rest : List Byte) (h : b.length < 65536) :
    takeBytes (Machine.bytesOperand b ++ rest) = .ok (b, rest) := by
  simp [takeBytes, Machine.bytesOperand, takeU16, takeExact, word16_count _ h]

/-- A sequence of `BYTES` is read back, whatever follows it. -/
theorem takeMany_bytesOperand (ps : List (List Byte)) (rest : List Byte) (h : ∀ p ∈ ps, p.length < 65536) :
    takeMany takeBytes ps.length (ps.flatMap Machine.bytesOperand ++ rest) = .ok (ps, rest) := by
  induction ps with
  | nil => rfl
  | cons p ps ih =>
    simp only [List.flatMap_cons, List.length_cons, List.append_assoc, takeMany,
      takeBytes_bytesOperand p _ (h p (by simp)), ih fun q hq => h q (by simp [hq])]

namespace Machine

/-- Enough fuel is enough. -/
theorem scanLoop_fuel (n m : Nat) (buf : List Byte) (hn : buf.length < n) (hm : buf.length < m) :
    scanLoop n buf = scanLoop m buf := by
  induction n generalizing m buf with
  | zero => omega
  | succ n ih =>
    match m, hm with
    | m + 1, hm =>
      have hl : (buf.dropWhile (fun b => decide (b ≠ sof))).length ≤ buf.length :=
        (List.dropWhile_suffix _).length_le
      unfold scanLoop
      rcases hd : buf.dropWhile (fun b => decide (b ≠ sof)) with _ | ⟨b, _ | ⟨c, rest⟩⟩
      · rfl
      · rfl
      · rw [hd] at hl
        simp only [List.length_cons] at hl
        simp only
        split
        · rfl
        · rw [ih m _ (by simp; omega) (by simp; omega)]

/-- One round of `SCAN` (41_framer.md R179). -/
theorem scan_eq (buf : List Byte) :
    scan buf =
      match buf.dropWhile (· ≠ sof) with
      | [] => ⟨[], []⟩
      | [m] => ⟨[m], []⟩
      | m :: n :: rest =>
        if rest.length < n.toNat + 2 then ⟨m :: n :: rest, []⟩
        else
          match parseSpan (n :: rest.take (n.toNat + 2)) with
          | some p => ⟨(scan (rest.drop (n.toNat + 2))).buf, p :: (scan (rest.drop (n.toNat + 2))).out⟩
          | none => scan (rest.drop (n.toNat + 2)) := by
  have hl : (buf.dropWhile (fun b => decide (b ≠ sof))).length ≤ buf.length :=
    (List.dropWhile_suffix _).length_le
  conv_lhs => unfold scan scanLoop
  rcases hd : buf.dropWhile (fun b => decide (b ≠ sof)) with _ | ⟨b, _ | ⟨c, rest⟩⟩
  · rfl
  · rfl
  · rw [hd] at hl
    simp only [List.length_cons] at hl
    simp only
    split
    · rfl
    · have e := scanLoop_fuel buf.length ((rest.drop (c.toNat + 2)).length + 1) (rest.drop (c.toNat + 2))
        (by simp; omega) (by simp)
      cases parseSpan (c :: rest.take (c.toNat + 2)) <;> simp only [scan, e]

/-- The byte-serial form takes a stream piece by piece. -/
theorem scanBytes_append (r : ScanRegs) (a b : List Byte) :
    scanBytes r (a ++ b) =
      ((scanBytes (scanBytes r a).1 b).1, (scanBytes r a).2 ++ (scanBytes (scanBytes r a).1 b).2) := by
  induction a generalizing r with
  | nil => simp [scanBytes]
  | cons x a ih => simp [scanBytes, ih]

end Machine

end Sys2Proof
end

