-- ==== Sys2Proof/Laws/Spi.lean ====
section
/-! SUPPORT. What the SPI port can do: one lemma for the draws, the transaction, the status read, the ready-poll and the radio step, and the same along a known tape of answers. -/

namespace Sys2Proof.Machine

/-- The answer has the length asked for, and only the tape and the counter of the free values move. -/
theorem State.drawBytes_spec (n : Nat) (s : State) :
    ∃ r l d, r.length = n ∧ s.drawBytes n = (r, { s with spiIn := l, draws := d }) := by
  induction n generalizing s with
  | zero => exact ⟨[], s.spiIn, s.draws, rfl, rfl⟩
  | succ n ih =>
    obtain ⟨l, d, h⟩ : ∃ l d, s.drawByte.2 = { s with spiIn := l, draws := d } := by
      unfold State.drawByte
      split
      · exact ⟨_, _, rfl⟩
      · exact ⟨_, _, rfl⟩
    obtain ⟨r, l', d', hr, h'⟩ := ih s.drawByte.2
    refine ⟨s.drawByte.1 :: r, l', d', by simp [hr], ?_⟩
    simp only [State.drawBytes, h']
    rw [h]

/-- Along a tape the answer is the tape's front. -/
theorem State.drawBytes_tape (bs rest : List Byte) (s : State) (h : s.spiIn = bs ++ rest) :
    s.drawBytes bs.length = (bs, { s with spiIn := rest }) := by
  induction bs generalizing s with
  | nil => subst_vars; simp_all [State.drawBytes]
  | cons b bs ih =>
    have hb : s.drawByte = (b, { s with spiIn := bs ++ rest }) := by simp [State.drawByte, h]
    simp [State.drawBytes, hb, ih]

/-- The limit comes from the tape or is free. -/
theorem State.drawLimit_spec (s : State) :
    ∃ n l d, s.drawLimit = (n, { s with pollLimits := l, draws := d }) := by
  unfold State.drawLimit
  split
  · exact ⟨_, _, _, rfl⟩
  · exact ⟨_, _, _, rfl⟩

/-- One transaction: a pair is appended to SPI_LOG. -/
theorem spiXfer_spec (out : List Byte) (n : Nat) (s : State) :
    ∃ r l d, r.length = n ∧ spiXfer out n s =
      (r, { s with radio := { s.radio with spiLog := s.radio.spiLog ++ [(out, r)] }, spiIn := l, draws := d }) := by
  obtain ⟨r, l, d, hr, h⟩ := s.drawBytes_spec n
  exact ⟨r, l, d, hr, by simp [spiXfer, h, State.setRadio]⟩

/-- A command reads nothing back and draws nothing. -/
theorem spiXfer_zero (out : List Byte) (s : State) :
    spiXfer out 0 s = ([], { s with radio := { s.radio with spiLog := s.radio.spiLog ++ [(out, [])] } }) := rfl

/-- One transaction along a tape. -/
theorem spiXfer_tape (out bs rest : List Byte) (s : State) (h : s.spiIn = bs ++ rest) :
    spiXfer out bs.length s =
      (bs, { s with radio := { s.radio with spiLog := s.radio.spiLog ++ [(out, bs)] }, spiIn := rest }) := by
  simp [spiXfer, State.drawBytes_tape bs rest s h, State.setRadio]

/-- One status read: ready exactly when the first byte is CTS_READY. -/
theorem readStatus_spec (k : Nat) (s : State) :
    ∃ r0 resp l d, resp.length = k ∧ readStatus k s =
      (if r0 = s.cfg.ctsReady then some resp else none,
        { s with
          radio := { s.radio with
            spiLog := s.radio.spiLog ++ [(s.cfg.opcReadStatus.bytes, r0 :: resp)]
            seqPoll := if r0 = s.cfg.ctsReady then .ready else .polling }
          spiIn := l, draws := d }) := by
  obtain ⟨r, l, d, hr, h⟩ := spiXfer_spec (cmdReadStatus s.cfg) (1 + k) s
  match r, hr with
  | r0 :: resp, hr =>
    refine ⟨r0, resp, l, d, by simp at hr; omega, ?_⟩
    unfold readStatus
    rw [h]
    by_cases hc : r0 = s.cfg.ctsReady <;> simp [hc, State.setPoll, State.setRadio, cmdReadStatus]
  | [], hr => simp at hr; omega

/-- One status read along a tape. -/
theorem readStatus_tape (r0 : Byte) (resp rest : List Byte) (s : State) (h : s.spiIn = r0 :: (resp ++ rest)) :
    readStatus resp.length s =
      (if r0 = s.cfg.ctsReady then some resp else none,
        { s with
          radio := { s.radio with
            spiLog := s.radio.spiLog ++ [(s.cfg.opcReadStatus.bytes, r0 :: resp)]
            seqPoll := if r0 = s.cfg.ctsReady then .ready else .polling }
          spiIn := rest }) := by
  have hx := spiXfer_tape (cmdReadStatus s.cfg) (r0 :: resp) rest s h
  rw [List.length_cons, Nat.add_comm] at hx
  unfold readStatus
  rw [hx]
  by_cases hc : r0 = s.cfg.ctsReady <;> simp [hc, State.setPoll, State.setRadio, cmdReadStatus]

/-- The status reads of a poll. -/
theorem pollLoop_spec (k n : Nat) (s : State) :
    ∃ reads l d p, PollReads s.cfg k reads
      ∧ (pollLoop k n s).2 = { s with
          radio := { s.radio with
            spiLog := s.radio.spiLog ++ reads.map (fun r => (s.cfg.opcReadStatus.bytes, r)), seqPoll := p }
          spiIn := l, draws := d }
      ∧ (pollLoop k n s).1 = (match pollResult s.cfg reads with | .ready r => some r | _ => none)
      ∧ ((∃ r, pollResult s.cfg reads = .ready r ∧ r.length = k) ∨ pollResult s.cfg reads = .timeout) := by
  induction n generalizing s with
  | zero =>
    obtain ⟨r0, resp, l, d, hk, h⟩ := readStatus_spec k s
    by_cases hc : r0 = s.cfg.ctsReady
    · refine ⟨[r0 :: resp], l, d, .ready, ⟨by simp, by simp [hk]; omega, by simp⟩, ?_⟩
      simp [pollLoop, h, hc, pollResult, hk]
    · refine ⟨[r0 :: resp], l, d, .timeout, ⟨by simp, by simp [hk]; omega, by simp⟩, ?_⟩
      simp [pollLoop, h, hc, pollResult, State.setPoll, State.setRadio]
  | succ n ih =>
    obtain ⟨r0, resp, l, d, hk, h⟩ := readStatus_spec k s
    by_cases hc : r0 = s.cfg.ctsReady
    · refine ⟨[r0 :: resp], l, d, .ready, ⟨by simp, by simp [hk]; omega, by simp⟩, ?_⟩
      simp [pollLoop, h, hc, pollResult, hk]
    · obtain ⟨reads, l', d', p, ⟨hne, hlen, hlast⟩, h2, h1, h3⟩ := ih (readStatus k s).2
      rw [h] at h1 h2 h3 hlast
      refine ⟨(r0 :: resp) :: reads, l', d', p, ⟨by simp, ?_, ?_⟩, ?_, ?_, ?_⟩
      · intro r hr
        rcases List.mem_cons.1 hr with rfl | hr
        · simp [hk]; omega
        · exact hlen r hr
      · intro r hr
        rw [List.dropLast_cons_of_ne_nil hne] at hr
        rcases List.mem_cons.1 hr with rfl | hr
        · simpa using hc
        · exact hlast r hr
      · simp [pollLoop, h, hc] at h2 ⊢
        simp [h2]
      · have : pollResult s.cfg ((r0 :: resp) :: reads) = pollResult s.cfg reads := by
          simp [pollResult, List.getLast?_cons, List.getLast?_eq_some_getLast hne]
        simp [pollLoop, h, hc, this] at h1 ⊢
        exact h1
      · have : pollResult s.cfg ((r0 :: resp) :: reads) = pollResult s.cfg reads := by
          simp [pollResult, List.getLast?_cons, List.getLast?_eq_some_getLast hne]
        simpa [this] using h3

/-- The ready-poll: its status reads, and READY with the response or TIMEOUT. -/
theorem poll_spec (k : Nat) (s : State) :
    ∃ reads l m d p, PollReads s.cfg k reads
      ∧ (poll k s).2 = { s with
          radio := { s.radio with
            spiLog := s.radio.spiLog ++ reads.map (fun r => (s.cfg.opcReadStatus.bytes, r)), seqPoll := p }
          spiIn := l, pollLimits := m, draws := d }
      ∧ (poll k s).1 = (match pollResult s.cfg reads with | .ready r => some r | _ => none)
      ∧ ((∃ r, pollResult s.cfg reads = .ready r ∧ r.length = k) ∨ pollResult s.cfg reads = .timeout) := by
  obtain ⟨n, m, d, hd⟩ := State.drawLimit_spec (s.setPoll .polling)
  obtain ⟨reads, l, d', p, hp, h2, h1, h3⟩ := pollLoop_spec k n { s.setPoll .polling with pollLimits := m, draws := d }
  refine ⟨reads, l, m, d', p, hp, ?_, ?_, h3⟩
  · simp only [poll, hd, h2]
    rfl
  · simp only [poll, hd, h1]
    rfl

/-- Everything a radio step can do: held, closed, or one block and its result. -/
theorem radioStep_spec (cmd : List Byte) (k : Nat) (s : State) :
    (s.radio.spiLock ≠ .free ∧ radioStep cmd k s = (.held, s))
    ∨ (s.radio.spiLock = .free ∧ s.radio.spiOpen = false ∧ radioStep cmd k s = (.closed, s.endStep .closed))
    ∨ (s.radio.spiLock = .free ∧ s.radio.spiOpen = true ∧ RadioStepDone cmd k s (radioStep cmd k s).2
        ∧ (radioStep cmd k s).1 = (radioStep cmd k s).2.radio.res
        ∧ ((∃ r, (radioStep cmd k s).1 = .ready r ∧ r.length = k) ∨ (radioStep cmd k s).1 = .timeout)) := by
  by_cases hl : s.radio.spiLock = .free
  · by_cases ho : s.radio.spiOpen = true
    · refine .inr (.inr ⟨hl, ho, ?_⟩)
      obtain ⟨reads, l, m, d, p, hp, h2, h1, h3⟩ := poll_spec k (spiXfer cmd 0 s).2
      have hlog : s.radio.spiLog ++ [(cmd, [])] ++ reads.map (fun r => (s.cfg.opcReadStatus.bytes, r))
          = s.radio.spiLog ++ stepLog s.cfg cmd reads := by simp [stepLog]
      obtain ⟨a, b, hab⟩ : ∃ a b, poll k (spiXfer cmd 0 s).2 = (a, b) := ⟨_, _, rfl⟩
      rw [hab] at h1 h2
      simp only [spiXfer_zero] at h1 h2 h3 hp
      subst h2
      rcases h3 with ⟨r, hr, hk⟩ | hr
      · rw [hr] at h1
        subst h1
        have : radioStep cmd k s = (.ready r, { s with
            radio := { s.radio with
              spiLog := s.radio.spiLog ++ stepLog s.cfg cmd reads, seqPoll := .idle, res := .ready r }
            spiIn := l, pollLimits := m, draws := d }) := by
          simp [radioStep, hl, ho, Mutex.isFree, hab, State.endStep, State.setRadio, stepLog]
        rw [this]
        exact ⟨⟨reads, hp, by rw [hr]⟩, rfl, .inl ⟨r, rfl, hk⟩⟩
      · rw [hr] at h1
        subst h1
        have : radioStep cmd k s = (.timeout, { s with
            radio := { s.radio with
              spiLog := s.radio.spiLog ++ stepLog s.cfg cmd reads, seqPoll := .idle, res := .timeout }
            spiIn := l, pollLimits := m, draws := d }) := by
          simp [radioStep, hl, ho, Mutex.isFree, hab, State.endStep, State.setRadio, stepLog]
        rw [this]
        exact ⟨⟨reads, hp, by rw [hr]⟩, rfl, .inr rfl⟩
    · exact .inr (.inl ⟨hl, by simpa using ho, by simp [radioStep, hl, ho, Mutex.isFree]⟩)
  · exact .inl ⟨hl, by simp [radioStep, hl, Mutex.isFree]⟩

/-- The loop of the poll when the first status read on the tape is ready. -/
theorem pollLoop_ready (n : Nat) (resp rest : List Byte) (s : State) (ht : s.spiIn = s.cfg.ctsReady :: (resp ++ rest)) :
    pollLoop resp.length n s = (some resp, { s with
      radio := { s.radio with
        spiLog := s.radio.spiLog ++ [(s.cfg.opcReadStatus.bytes, s.cfg.ctsReady :: resp)], seqPoll := .ready }
      spiIn := rest }) := by
  cases n <;> simp [pollLoop, readStatus_tape _ resp rest s ht]

/-- The radio step when the first status read on the tape is ready. -/
theorem radioStep_ready (cmd resp rest : List Byte) (s : State) (hl : s.radio.spiLock = .free)
    (ho : s.radio.spiOpen = true) (ht : s.spiIn = s.cfg.ctsReady :: (resp ++ rest)) :
    ∃ l d, radioStep cmd resp.length s = (.ready resp, { s with
      radio := { s.radio with
        spiLog := s.radio.spiLog ++ readyLog s.cfg cmd resp, seqPoll := .idle, res := .ready resp }
      spiIn := rest, pollLimits := l, draws := d }) := by
  obtain ⟨n, l, d, hd⟩ := State.drawLimit_spec ((spiXfer cmd 0 s).2.setPoll .polling)
  obtain ⟨s1, h1⟩ : ∃ s1 : State, s1 =
      { (spiXfer cmd 0 s).2.setPoll .polling with pollLimits := l, draws := d } := ⟨_, rfl⟩
  have hpoll : poll resp.length (spiXfer cmd 0 s).2 = pollLoop resp.length n s1 := by
    simp [poll, hd, h1]
  rw [pollLoop_ready n resp rest s1 (by subst h1; exact ht)] at hpoll
  subst h1
  refine ⟨l, d, ?_⟩
  unfold radioStep
  rw [hpoll]
  simp [hl, ho, Mutex.isFree, State.endStep, State.setRadio, State.setPoll, spiXfer_zero, readyLog, stepLog]

end Sys2Proof.Machine
end

