-- ==== Sys2Proof/Machine/UartChar.lean ====
section
/-! DEFINITION. Format U, the character on a UART line (30_encoding.md R115; 20_memory.md R83 item 5), for a byte carried by eight data bits. The machine's line carries bytes; nothing in a step depends on this file. -/

namespace Sys2Proof.Machine

/-- The eight data bits, least significant first. -/
def dataBits (b : Byte) : List Bool := (List.range 8).map (fun i => b.getLsbD i)

/-- The parity bit, if any: even and odd parity make the number of ones even or odd, mark is 1, space is 0. -/
def parityBit (p : Parity) (b : Byte) : List Bool :=
  match p with
  | .n => []
  | .e => [(dataBits b).foldl xor false]
  | .o => [!(dataBits b).foldl xor false]
  | .m => [true]
  | .s => [false]

/-- A character: the start bit (low), the data bits, the parity bit if any, the stop bits (high). -/
def uartChar (p : Parity) (stopbits : Nat) (b : Byte) : List Bool :=
  false :: (dataBits b ++ parityBit p b ++ List.replicate stopbits true)

/-- The level history of TXD for the bytes put on the bus by a controller with eight data bits (10_state.md R40). -/
def Uart.txdBits (u : Uart) : List Bool :=
  u.lineOut.flatMap (fun e => uartChar u.parity u.stopbits e.1)

end Sys2Proof.Machine
end

