-- ==== Sys2Proof/Tests/Slice0.lean ====
section
/-! SUPPORT. The model's own tests: ill-formed terms, decoding of words written out from 30_encoding.md R131, the vectors of 95_test_vectors.md (a rule-derived expectation where a comment names no vector), and for every statement with hypotheses a concrete state that meets them. -/

namespace Sys2Proof.Tests

open Sys2Proof.Machine

set_option maxRecDepth 20000

/-! ### Helpers -/

/-- A header of one byte. -/
def hd (b : Byte) : Header := ⟨b, []⟩

/-- Parameters for tests; the headers stand for the open parameters of R10, CTS_READY is that of 95_test_vectors.md. -/
def cfg : Config where
  deTxLevel := true
  reTxLevel := true
  rstAssertLevel := false
  echoInTx := false
  spiMode := .mode0
  spiMsbFirst := true
  ctsReady := 0xFF
  opcPowerUp := ⟨0xA1, [0xA2]⟩
  opcReadStatus := hd 0xB0
  opcGpioCfg := hd 0xB1
  opcSetProperty := hd 0xB2
  opcClearTxFifo := hd 0xB3
  opcWriteTxFifo := hd 0xB4
  opcStartTx := hd 0xB5
  opcStartRx := hd 0xB6
  opcRxLen := hd 0xB7
  opcReadRxFifo := hd 0xB8
  argsPowerUp := [0x0A]
  argsGpioCfg := [0x0B, 0x0C]
  intOverride := ⟨1, 1, 0, [0x20]⟩
  intOverrideMore := []
  tBackoff := 1
  tJoin := 1
  tRxReady := 1
  tPoll := 1
  tResetHold := 1
  tResetSettle := 1
  tShutdown := 1

/-- The state after reset with the parameters of the tests and two UART controllers. -/
def base : State := { State.reset with cfg := cfg, uarts := [Uart.reset, Uart.reset] }

/-- `base` with `u` as instance 1. -/
def withU (u : Uart) : State := { base with uarts := [Uart.reset, u] }

/-- `base` with the radio `r`. -/
def withR (r : Radio) : State := { base with radio := r }

/-- `s` with `op` in progress under ticket 0. -/
def withOp (op : HostOp) (s : State) : State := { s with ops := [(0, op)], nextTicket := 1 }

/-- `s` with the radio chip's next answers, each poll limited to one status read. -/
def answers (bs : List Byte) (s : State) : State :=
  { s with spiIn := bs, pollLimits := List.replicate 8 0 }

/-- A framed controller right after construction. -/
def uF : Uart := Uart.reset.constructFramed 115200

/-- A raw controller right after construction. -/
def uR : Uart := Uart.reset.constructRaw ⟨9600, 8, 1, .n⟩

/-- A running radio. -/
def rR : Radio :=
  { Radio.reset with lc := .running, alloc := true, irqEn := true, spiOpen := true, rst := .deasserted
                     channel := 5, seqCons := .done, seqRdTx := .wait }

/-- A radio whose construction failed. -/
def rFailed : Radio := { Radio.reset with lc := .failed, alloc := true, seqCons := .failed }

/-- The state an instruction leaves; where it gives none, the state it found. -/
def after (i : Instr) (s : State) : State := match exec i s with | .next t => t | _ => s

/-- The state a step leaves; where it gives none, the state it found. -/
def stepped (s : State) : State := match step s with | .next t => t | _ => s

/-- The state that the next row of ticket 0 leaves. -/
def resumed (b : Bool) (s : State) : State := match resume 0 b s with | .next t => t | _ => s

/-- The response an instruction gives at once. -/
def reply (i : Instr) (s : State) : Option Response := ((after i s).responses.getLast?).map Prod.snd

/-- The bytes of the response a word gives at once. -/
def replyTo (w : List Byte) (s : State) : Option (List Byte) :=
  match (stepped { s with script := [.issue w] }).responses.getLast? with
  | some (_, r) => responseBytes r
  | none => none

/-- Instance 1 after an instruction. -/
def uAfter (i : Instr) (u : Uart) : Uart := ((after i (withU u)).uarts[1]?).getD Uart.reset

/-- What a parse gave, the error forgotten. -/
def ok? {α : Type} : Except DecodeError α → Option α
  | .ok a => some a
  | .error _ => none

/-! ### Ill-formed terms, one for each check of `Instr.wf` -/

theorem test_wf_sum : (Instr.crcSum (List.replicate 65536 0)).wf = false := by
  simp only [Instr.wf, wfBytes, List.length_replicate]; decide
theorem test_wf_build : (Instr.frmBuild (List.replicate 65536 0)).wf = false := by
  simp only [Instr.wf, wfBytes, List.length_replicate]; decide
theorem test_wf_parse : (Instr.frmParse (List.replicate 65536 0)).wf = false := by
  simp only [Instr.wf, wfBytes, List.length_replicate]; decide
theorem test_wf_send : (Instr.ufSend 0 (List.replicate 65536 0)).wf = false := by
  simp only [Instr.wf, wfBytes, List.length_replicate]; decide
theorem test_wf_write : (Instr.urWrite 0 (List.replicate 65536 0)).wf = false := by
  simp only [Instr.wf, wfBytes, List.length_replicate]; decide
theorem test_wf_record : (Instr.rdConstruct 0 [⟨0, 0, 0, List.replicate 65536 0⟩]).wf = false := by
  simp only [Instr.wf, wfRecord, wfBytes, List.all_cons, List.length_replicate]; decide
theorem test_wf_records : (Instr.rdConstruct 0 (List.replicate 65536 ⟨0, 0, 0, []⟩)).wf = false := by
  simp only [Instr.wf, List.length_replicate]; rfl
theorem test_wf_packet : (Instr.rdTransmit [List.replicate 65536 0]).wf = false := by
  simp only [Instr.wf, wfBytes, List.all_cons, List.length_replicate]; decide
theorem test_wf_packets : (Instr.rdTransmit (List.replicate 65536 [])).wf = false := by
  simp only [Instr.wf, List.length_replicate]; rfl
theorem test_wf_status : (Instr.rcReadStatus 65536).wf = false := by decide
theorem test_wf_fifo : (Instr.rcWriteTxFifo []).wf = false
    ∧ (Instr.rcWriteTxFifo (List.replicate 65 0)).wf = false := by decide
theorem test_wf_start : (Instr.rcStartTx 5 0).wf = false ∧ (Instr.rcStartTx 5 65).wf = false := by decide
theorem test_wf_read : (Instr.rcReadRxFifo 65536).wf = false := by decide
theorem test_wf_frame : (Instr.frame 0 (List.replicate 256 0) 0 0).wf = false := by
  simp only [Instr.wf, List.length_replicate]; decide

/-! ### Decoding, each word written out from R131 (R111 for a frame, R128 for the length) -/

theorem test_decode_crcInit : ok? (decodeHost [0x01, 0x00]) = some .crcInit := by decide
theorem test_decode_crcUpdate : ok? (decodeHost [0x02, 0x00, 0x41]) = some (.crcUpdate 0x41) := by decide
theorem test_decode_crcRead : ok? (decodeHost [0x03, 0x00]) = some .crcRead := by decide
theorem test_decode_crcSum : ok? (decodeHost [0x04, 0x00, 0x00, 0x01, 0x7E]) = some (.crcSum [0x7E]) := by decide
theorem test_decode_frmBuild :
    ok? (decodeHost [0x10, 0x00, 0x00, 0x02, 0x41, 0x42]) = some (.frmBuild [0x41, 0x42]) := by decide
theorem test_decode_frmParse :
    ok? (decodeHost [0x11, 0x00, 0x00, 0x03, 0x00, 0xBF, 0x40]) = some (.frmParse [0x00, 0xBF, 0x40]) := by decide
theorem test_decode_ufConstruct :
    ok? (decodeHost [0x20, 0x01, 0x00, 0x01, 0xC2, 0x00]) = some (.ufConstruct 1 115200) := by decide
theorem test_decode_ufSend : ok? (decodeHost [0x21, 0x03, 0x00, 0x01, 0x43]) = some (.ufSend 3 [0x43]) := by decide
theorem test_decode_ufReadFrame :
    ok? (decodeHost [0x22, 0x00, 0x01, 0x00, 0x00, 0x00, 0x32]) = some (.ufReadFrame 0 (some 50))
    ∧ ok? (decodeHost [0x22, 0x02, 0x00]) = some (.ufReadFrame 2 none) := by decide
theorem test_decode_ufShutdown : ok? (decodeHost [0x23, 0x01]) = some (.ufShutdown 1) := by decide
theorem test_decode_urConstruct :
    ok? (decodeHost [0x30, 0x01, 0x00, 0x1E, 0x84, 0x80, 0x09, 0x02, 0x53])
      = some (.urConstruct 1 2000000 9 2 0x53) := by decide
theorem test_decode_urWrite :
    ok? (decodeHost [0x31, 0x00, 0x00, 0x03, 0x66, 0x6F, 0x6F]) = some (.urWrite 0 [0x66, 0x6F, 0x6F]) := by decide
theorem test_decode_urRead : ok? (decodeHost [0x32, 0x01]) = some (.urRead 1) := by decide
theorem test_decode_urShutdown : ok? (decodeHost [0x33, 0x01]) = some (.urShutdown 1) := by decide
theorem test_decode_rdConstruct :
    ok? (decodeHost [0x40, 0x00, 0x01, 0x05, 0x00, 0x02, 0x0A, 0x01, 0x02, 0x00, 0x01, 0x07, 0x0B, 0x00, 0x03, 0x00, 0x00])
      = some (.rdConstruct 0x0105 [⟨0x0A, 1, 2, [7]⟩, ⟨0x0B, 0, 3, []⟩]) := by decide
theorem test_decode_rdTransmit :
    ok? (decodeHost [0x41, 0x00, 0x00, 0x02, 0x00, 0x03, 0x01, 0x02, 0x03, 0x00, 0x01, 0xAA])
      = some (.rdTransmit [[1, 2, 3], [0xAA]]) := by decide
theorem test_decode_rdReceive : ok? (decodeHost [0x42, 0x00]) = some .rdReceive := by decide
theorem test_decode_rdShutdown : ok? (decodeHost [0x43, 0x00]) = some .rdShutdown := by decide
theorem test_decode_frame :
    ok? (decodeLine 1 [0x7E, 0x02, 0x41, 0x42, 0x60, 0x61]) = some (.frame 1 [0x41, 0x42] 0x60 0x61) := by decide
theorem test_decode_rxlen : ok? (decodeRxLen [0x05, 0x00]) = some (.rxlen 5 0) ∧ rxLenValue 5 0 = 1280 := by decide

/-- The agents' steps have no word (R131); the scheduler names them. -/
theorem test_agent_steps :
    (AgentStep.ufRx 1).instr = .ufRxStep 1 ∧ (AgentStep.urTx 1).instr = .urTxStep 1
    ∧ (AgentStep.urRx 1).instr = .urRxStep 1 ∧ (AgentStep.rdTx true).instr = .rdTxStep true
    ∧ AgentStep.rdIrq.instr = .rdIrqStep := by decide

/-- The SPI commands are written, not decoded (R120 to R122). -/
theorem test_spi_bytes :
    encode cfg .rcPowerUp = [0xA1, 0xA2, 0x0A] ∧ encode cfg (.rcReadStatus 2) = [0xB0]
    ∧ encode cfg .rcGpioCfg = [0xB1, 0x0B, 0x0C]
    ∧ encode cfg (.rcSetProperty ⟨7, 1, 2, [9]⟩) = [0xB2, 7, 1, 2, 9]
    ∧ encode cfg .rcClearTxFifo = [0xB3] ∧ encode cfg (.rcWriteTxFifo [1, 2, 3]) = [0xB4, 1, 2, 3]
    ∧ encode cfg (.rcStartTx 5 3) = 0xB5 :: Config.argsStartTx 5 3
    ∧ encode cfg (.rcStartRx 5) = 0xB6 :: Config.argsStartRx 5
    ∧ encode cfg .rcRxLen = [0xB7] ∧ encode cfg (.rcReadRxFifo 3) = [0xB8] :=
  ⟨by decide, by decide, by decide, by decide, by decide, by decide, rfl, rfl, by decide, by decide⟩

/-- V65: no such CODE, INST not 0, a count longer than the word, a bad tag. -/
theorem test_illegal_words :
    replyTo [0x05, 0x00] base = some [0x05] ∧ replyTo [0xFF, 0x00] base = some [0x05]
    ∧ replyTo [0x01, 0x01] base = some [0x05] ∧ replyTo [0x41, 0x01, 0x00, 0x00] base = some [0x05]
    ∧ replyTo [0x21, 0x00, 0x00, 0x03, 0x41, 0x42] base = some [0x05]
    ∧ replyTo [0x22, 0x00, 0x02] base = some [0x05] ∧ replyTo [0x21, 0x09, 0x00, 0x00] base = some [0x05] := by
  decide

/-! ### CRC unit and framer -/

/-- V6 step 7. -/
theorem test_crcInit : (after .crcInit { base with crc := 0x6160 }).crc = 0xFFFF := by decide
/-- V6. -/
theorem test_crcUpdate :
    (after (.crcUpdate 0x41) { base with crc := 0x813E }).crc = 0xE0C0
    ∧ (after (.crcUpdate 0x80) { base with crc := 0 }).crc = 0xA001 := by decide
/-- V6 step 5, V67. -/
theorem test_crcRead : replyTo [0x03, 0x00] { base with crc := 0x6160 } = some [0x00, 0x61, 0x60] := by decide
/-- V2, V67. -/
theorem test_crcSum :
    replyTo [0x04, 0x00, 0x00, 0x09, 0x31, 0x32, 0x33, 0x34, 0x35, 0x36, 0x37, 0x38, 0x39] base
      = some [0x00, 0x4B, 0x37] ∧ crcSum [] = 0xFFFF := by decide
/-- V16, V11. -/
theorem test_frmBuild :
    replyTo [0x10, 0x00, 0x00, 0x02, 0x41, 0x42] base
      = some [0x00, 0x00, 0x06, 0x7E, 0x02, 0x41, 0x42, 0x60, 0x61]
    ∧ buildFrame [] = [0x7E, 0x00, 0xBF, 0x40] := by decide
/-- V16, V17, V18. -/
theorem test_frmParse :
    replyTo [0x11, 0x00, 0x00, 0x05, 0x02, 0x41, 0x42, 0x60, 0x61] base = some [0x00, 0x01, 0x00, 0x02, 0x41, 0x42]
    ∧ replyTo [0x11, 0x00, 0x00, 0x05, 0x02, 0x41, 0x42, 0x61, 0x60] base = some [0x00, 0x00]
    ∧ parseSpan [0x00, 0xBF, 0x40] = some [] ∧ parseSpan [0x00, 0xBF] = none := by decide
/-- V24, V27, V30, V31. -/
theorem test_scan :
    scan [0x00, 0x13, 0x7E, 0x02, 0x41, 0x42, 0x60, 0x61, 0x7E, 0x01, 0x43] = ⟨[0x7E, 0x01, 0x43], [[0x41, 0x42]]⟩
    ∧ scan [0x7E, 0x02, 0x7E, 0x02, 0x41, 0x42, 0x60, 0x61] = ⟨[], []⟩
    ∧ scan [0x7E, 0x7E, 0x00, 0xBF, 0x40] = ⟨[0x7E, 0x7E, 0x00, 0xBF, 0x40], []⟩
    ∧ scan [0x7E, 0x00, 0xBF, 0x40, 0xFF] = ⟨[], [[]]⟩ := by decide
/-- V22. -/
theorem test_scanBytes :
    (scanBytes huntRegs [0x00, 0x7E, 0x02, 0x41, 0x42, 0x60]).1 = ⟨.crcHi, 2, 2, 0x6160, 0x60, [0x41, 0x42]⟩
    ∧ (scanBytes huntRegs [0x00, 0x7E, 0x02, 0x41, 0x42, 0x60, 0x61]).2 = [[0x41, 0x42]] := by decide

/-! ### Framed UART controller -/

/-- V32. -/
theorem test_ufConstruct :
    uAfter (.ufConstruct 1 115200) Uart.reset
      = { Uart.reset with lc := .running, baud := 115200, databits := 8, stopbits := 1, uartOpen := true
                          dir := .rx, run := true, seqUfRx := .running }
    ∧ replyTo [0x20, 0x01, 0, 0, 0, 0] base = some [0x02, 0x01] := by decide
/-- V33, V41: accepted when running; the bytes of a row; refused on a controller never constructed. -/
theorem test_ufSend :
    (resumed false (withOp (.send 1 (buildFrame [0x41, 0x42]) (.write 0)) (withU { uF with dir := .tx }))).uarts.map
        Uart.lineOut = [[], [(0x7E, .tx)]]
    ∧ replyTo [0x21, 0x01, 0x00, 0x02, 0x41, 0x42] base = some [0x04, 0x00] := by decide
/-- V38. -/
theorem test_ufReadFrame :
    replyTo [0x22, 0x01, 0x01, 0, 0, 0, 0] (withU { uF with rxq := [[]] }) = some [0x00, 0x01, 0x00, 0x00]
    ∧ replyTo [0x22, 0x01, 0x01, 0, 0, 0, 0] (withU uF) = some [0x00, 0x00] := by decide
/-- V41. -/
theorem test_ufShutdown :
    (uAfter (.ufShutdown 1) uF).lc = .shut ∧ (uAfter (.ufShutdown 1) uF).run = false
    ∧ replyTo [0x23, 0x01] (withU { uF with lc := .shut }) = some [0x04, 0x04] := by decide
/-- V24 and V40. -/
theorem test_ufRxStep :
    (uAfter (.ufRxStep 1) { uF with rxAvail := [0x55, 0x7E, 0x01, 0x43, 0x41, 0xD1, 0x7E, 0x01] }).rxq = [[0x43]]
    ∧ (uAfter (.ufRxStep 1) { uF with rxBuf := [0x7E, 0x01, 0x43], readErr := true }).diag = [.hwReadErr]
    ∧ (uAfter (.ufRxStep 1) { uF with rxBuf := [0x7E, 0x01, 0x43], readErr := true }).rxBuf = [0x7E, 0x01, 0x43] := by
  decide
/-- V39: what the line carries is heard while receiving, and not while transmitting without echo. -/
theorem test_frame :
    (uAfter (.frame 1 [0x43] 0x41 0xD1) uF).rxAvail = [0x7E, 0x01, 0x43, 0x41, 0xD1]
    ∧ (uAfter (.frame 1 [0x43] 0x41 0xD1) { uF with dir := .tx }).rxAvail = [] := by decide

/-! ### Raw UART controller -/

/-- V42. -/
theorem test_urConstruct :
    replyTo [0x30, 0x01, 0x00, 0x00, 0x04, 0xAF, 0x08, 0x01, 0x4E] base = some [0x02, 0x01]
    ∧ replyTo [0x30, 0x01, 0x00, 0x00, 0x25, 0x80, 0x0A, 0x01, 0x4E] base = some [0x02, 0x02]
    ∧ replyTo [0x30, 0x01, 0x00, 0x00, 0x25, 0x80, 0x08, 0x03, 0x4E] base = some [0x02, 0x03]
    ∧ replyTo [0x30, 0x01, 0x00, 0x00, 0x25, 0x80, 0x08, 0x01, 0x6E] base = some [0x02, 0x04] := by decide
/-- V42. -/
theorem test_urConstruct_bounds :
    (uAfter (.urConstruct 1 1200 5 1 0x45) Uart.reset).parity = .e
    ∧ (uAfter (.urConstruct 1 2000000 9 2 0x53) Uart.reset).baud = 2000000 := by decide
/-- V43. -/
theorem test_urWrite : (uAfter (.urWrite 1 [0x66, 0x6F]) { uR with txPend := [1] }).txPend = [1, 0x66, 0x6F] := by decide
/-- V45. -/
theorem test_urRead :
    replyTo [0x32, 0x01] (withU { uR with rxAcc := [1, 2, 3] }) = some [0x00, 0x00, 0x03, 0x01, 0x02, 0x03]
    ∧ (uAfter (.urRead 1) { uR with rxAcc := [1, 2, 3] }).rxAcc = [] := by decide
/-- R227 step 1, V47. -/
theorem test_urShutdown :
    (uAfter (.urShutdown 1) uR).lc = .shut ∧ (uAfter (.urShutdown 1) uR).shutReq = false
    ∧ replyTo [0x21, 0x01, 0x00, 0x00] (withU uR) = some [0x04, 0x02] := by decide
/-- V43; R223: in WAIT a requested shutdown wins. -/
theorem test_urTxStep :
    (uAfter (.urTxStep 1) { uR with seqUrTx := .writing, dir := .tx, txBatch := [0x66, 0x6F] }).lineOut
      = [(0x66, .tx), (0x6F, .tx)]
    ∧ (uAfter (.urTxStep 1) { uR with txPend := [1], shutReq := true }).seqUrTx = .stopped := by decide
/-- V45. -/
theorem test_urRxStep :
    (uAfter (.urRxStep 1) { uR with rxAvail := [1, 2] }).seqUrRx = .draining [1, 2]
    ∧ (uAfter (.urRxStep 1) { uR with rxAcc := [1, 2], seqUrRx := .draining [3] }).rxAcc = [1, 2, 3] := by decide

/-! ### Radio controller -/

/-- V52 and R261. -/
theorem test_rdConstruct :
    (after (.rdConstruct 5 []) base).radio.lc = .constructing
    ∧ reply (.rdConstruct 5 []) (withR rR) = some (.error (.state .running)) := by decide
/-- V49, V50: the response of step S1. -/
theorem test_rdConstruct_parse :
    (resumed false (withOp (.rdConstruct 5 (List.replicate 30 default))
        (withR { Radio.reset with seqCons := .s1Parse }))).responses = [(0, .error (.config (.properties 30)))]
    ∧ (resumed false (withOp (.rdConstruct 256 []) (withR { Radio.reset with seqCons := .s1Parse }))).responses
        = [(0, .error (.config .channel))] := by decide
/-- V53. -/
theorem test_rdTransmit :
    reply (.rdTransmit [[0xAA], List.replicate 65 0, [0xBB]]) (withR rR) = some (.error (.size 1 65))
    ∧ (after (.rdTransmit [[1, 2, 3], [0xAA]]) (withR rR)).radio.txq = [[1, 2, 3], [0xAA]] := by decide
/-- V57. -/
theorem test_rdReceive :
    replyTo [0x42, 0x00] (withR { rR with rxList := [[0xAA, 0xBB, 0xCC]] })
      = some [0x00, 0x00, 0x01, 0x00, 0x03, 0xAA, 0xBB, 0xCC] := by decide
/-- R291 step 1, V64. -/
theorem test_rdShutdown :
    (after .rdShutdown (withR rR)).radio.lc = .shut
    ∧ replyTo [0x43, 0x00] (withR { rR with lc := .shut }) = some [0x04, 0x04] := by decide
/-- V54: drain, and the write of packet 0. -/
theorem test_rdTxStep :
    (after (.rdTxStep false) (withR { rR with txq := [[1, 2, 3]] })).radio.txBatchR = [[1, 2, 3]]
    ∧ (after (.rdTxStep false)
        (answers [0xFF] (withR { rR with txBatchR := [[1, 2, 3]], seqRdTx := .batch 0 .write }))).radio.spiLog
      = [([0xB4, 1, 2, 3], []), ([0xB0], [0xFF])] := by decide
/-- V55: a write that is never ready drops the packet. -/
theorem test_rdTxStep_drop :
    (after (.rdTxStep false)
        (answers [0x00] (withR { rR with txBatchR := [[1], [2]], seqRdTx := .batch 0 .write }))).radio.seqRdTx
      = .batch 1 .clear := by decide
/-- V57, V59. -/
theorem test_rdIrqStep :
    (after .rdIrqStep (answers [0xFF, 0x05, 0x00] (withR { rR with seqRdIrq := .len }))).radio.seqRdIrq = .data 1280
    ∧ (after .rdIrqStep (answers [0xFF, 0xAA, 0xBB] (withR { rR with seqRdIrq := .data 2 }))).radio.seqRdIrq
        = .store [0xAA, 0xBB] := by decide
/-- 44_radio_handshake.md R250, R267: agents left over by a shutdown issue no command before S7 of the next construction, the handler one after it. -/
theorem test_leftOver :
    let early := answers [0xFF, 0, 3] (withR { rR with lc := .constructing, irqEn := false, seqRdIrq := .len, seqRdTx := .rearm })
    let late := answers [0xFF, 0, 3] (withR { rR with lc := .constructing, seqRdIrq := .len })
    after .rdIrqStep early = early ∧ after (.rdTxStep false) early = early
    ∧ (after .rdIrqStep late).radio.seqRdIrq = .data 3 := by decide
/-- R283, R287: with the port closed, as in S1, their radio rows end CLOSED; STORE needs RXLLOCK alone. -/
theorem test_leftOver_closed :
    let s1 := { rR with lc := .constructing, irqEn := false, spiOpen := false, seqCons := .s1Parse }
    (after .rdIrqStep (withR { s1 with seqRdIrq := .data 3 })).radio.seqRdIrq = .idle
    ∧ (after (.rdTxStep false) (withR { s1 with seqRdTx := .batch 0 .write })).radio.seqRdTx = .stopped
    ∧ (after .rdIrqStep (withR { s1 with seqRdIrq := .store [1] })).radio.rxList = [[1]] := by decide
/-- V59. -/
theorem test_rxlen : (after (.rxlen 1 0) (withR { rR with seqRdIrq := .len })).radio.seqRdIrq = .data 256 := by decide
/-- R250, R246. -/
theorem test_rcPowerUp :
    (after .rcPowerUp (answers [0xFF] (withR rR))).radio.spiLog = [([0xA1, 0xA2, 0x0A], []), ([0xB0], [0xFF])] := by
  decide
/-- R251, V61: a byte that is not CTS_READY is not ready. -/
theorem test_rcReadStatus :
    (after (.rcReadStatus 1) (answers [0xFF, 0x09] (withR rR))).radio.res = .ready [0x09]
    ∧ (after (.rcReadStatus 1) (answers [0xFE, 0x09] (withR rR))).radio.res = .none := by decide
/-- R252, V51: a poll that is never ready. -/
theorem test_rcGpioCfg : (after .rcGpioCfg (answers [0x00] (withR rR))).radio.res = .timeout := by decide
/-- R253, V48. -/
theorem test_rcSetProperty :
    (after (.rcSetProperty ⟨0x1E, 1, 0, [0x1E]⟩) (answers [0xFF] (withR rR))).radio.spiLog
      = [([0xB2, 0x1E, 1, 0, 0x1E], []), ([0xB0], [0xFF])] := by decide
/-- R254; V61, a poll of three status reads. -/
theorem test_rcClearTxFifo :
    (after .rcClearTxFifo { withR rR with spiIn := [0, 0, 0xFF], pollLimits := [2] }).radio.spiLog
      = [([0xB3], []), ([0xB0], [0x00]), ([0xB0], [0x00]), ([0xB0], [0xFF])] := by decide
/-- R255; R247, a closed port makes no transaction. -/
theorem test_rcWriteTxFifo :
    (after (.rcWriteTxFifo [1]) (answers [0xFF] (withR { rR with spiOpen := false }))).radio.spiLog = []
    ∧ (after (.rcWriteTxFifo [1]) (answers [0xFF] (withR rR))).radio.spiLog = [([0xB4, 1], []), ([0xB0], [0xFF])] := by
  decide
/-- R256. -/
theorem test_rcStartTx :
    (after (.rcStartTx 5 3) (answers [0xFF] (withR rR))).radio.spiLog
      = [(0xB5 :: Config.argsStartTx 5 3, []), ([0xB0], [0xFF])] := rfl
/-- R257. -/
theorem test_rcStartRx :
    (after (.rcStartRx 5) (answers [0xFF] (withR rR))).radio.spiLog
      = [(0xB6 :: Config.argsStartRx 5, []), ([0xB0], [0xFF])] := rfl
/-- R258, V57: the bytes after a byte that is not ready are discarded. -/
theorem test_rcRxLen :
    (after .rcRxLen { withR rR with spiIn := [0, 7, 7, 0xFF, 0, 3], pollLimits := [1] }).radio.res = .ready [0, 3] := by
  decide
/-- R259, V57. -/
theorem test_rcReadRxFifo :
    (after (.rcReadRxFifo 3) (answers [0xFF, 0xAA, 0xBB, 0xCC] (withR rR))).radio.spiLog
      = [([0xB8], []), ([0xB0], [0xFF, 0xAA, 0xBB, 0xCC])] := by decide

/-! ### Quiescence -/

/-- R103: a partial frame and undelivered data do not disturb it; a receiver that holds bytes or backs off does. -/
theorem test_quiescent :
    (withU { uF with rxBuf := [0x7E, 0x01], rxq := [[1]] }).quiescent = true ∧ (withU uR).quiescent = true
    ∧ (withU { uR with seqUrRx := .draining [1] }).quiescent = false
    ∧ (withU { uF with seqUfRx := .backoff }).quiescent = false
    ∧ (withR { rR with seqCons := .s2Reset .hold }).quiescent = false := by decide
/-- R103: what the environment is still to deliver disturbs it, what the host is still to issue does not. -/
theorem test_quiescent_script :
    let s := withR { rR with irqLine := true }
    { s with script := [.issue [0x42, 0x00], .agent .rdIrq, .irq true] }.quiescent = true
    ∧ { s with script := [.irq false] }.quiescent = false
    ∧ { s with script := [.issue [0x42, 0x00], .line 0 [0x7E]] }.quiescent = false := by decide

/-! ### Witnesses: for each statement with hypotheses, concrete operands and states that meet them -/

/-- 255 bytes, the longest payload. -/
def longest : List Byte := List.replicate 255 0

/-- A mutex that some other agent holds. -/
def taken : Mutex := .held .rdIrq

/-- Instance 1 in the middle of a `UF.SEND` with ticket 0, after the first byte. -/
def sending : State :=
  withOp (.send 1 (buildFrame [0x43]) (.write 1))
    (withU { uF with dir := .tx, sendLock := .held (.host 0), lineOut := [(0x7E, .tx)] })

/-- The radio in the middle of `RD.SHUTDOWN` with ticket 0, about to close the port. -/
def closing : State :=
  withOp (.rdShutdown .close) (withR { rR with lc := .shut, shutdown := true, spiLock := .held (.host 0) })

theorem witness_crcResidue :
    ([0x00, 0xFF] : List Byte).length = (0 : Byte).toNat + 2
    ∧ (List.replicate 257 (0 : Byte)).length = (255 : Byte).toNat + 2 := by decide
theorem witness_crcSingleBit :
    crcUpdate 0xFFFF 0x41 = crcUpdate 0xFFFF 0x41 ∧ longest.length ≤ 255 ∧ (15 : Nat) < 16 ∧ (7 : Nat) < 8 := by decide
theorem witness_crcRegisterOwnership :
    ∃ t, step { base with script := [.issue [0x02, 0x00, 0x41]] } = .next t ∧ t.crc ≠ base.crc := ⟨_, rfl, by decide⟩
theorem witness_frameBuild : longest.length ≤ 255 ∧ 255 < (0 :: longest).length := by decide
theorem witness_frameParse :
    ([0x41, 0x42] : List Byte).length = (2 : Byte).toNat ∧ longest.length = (255 : Byte).toNat
    ∧ ∀ (n : Byte) (rest : List Byte), ([] : List Byte) = n :: rest → rest.length ≠ n.toNat + 2 :=
  ⟨by decide, by decide, fun _ _ h => nomatch h⟩
theorem witness_frameRoundTrip : longest.length ≤ 255 := by decide
theorem witness_scannerFormsAgree :
    ScanAgrees [] huntRegs ∧ ScanAgrees [0x7E] ⟨.len, 0, 0, 0, 0, []⟩
    ∧ ScanAgrees [0x7E, 0x02, 0x41] ⟨.data, 2, 1, crcSum [0x02, 0x41], 0, [0x41]⟩
    ∧ ScanAgrees [0x7E, 0x00] ⟨.crcLo, 0, 0, crcSum [0x00], 0, []⟩
    ∧ ScanAgrees [0x7E, 0x00, 0xBF] ⟨.crcHi, 0, 0, crcSum [0x00], 0xBF, []⟩ :=
  ⟨.inl ⟨rfl, rfl⟩, .inr (.inl ⟨rfl, rfl⟩),
    .inr (.inr (.inl ⟨2, [0x41], rfl, by decide, rfl, rfl, rfl, by decide, rfl⟩)),
    .inr (.inr (.inr (.inl ⟨0, [], rfl, by decide, rfl, rfl, rfl⟩))),
    .inr (.inr (.inr (.inr ⟨0, [], 0xBF, rfl, by decide, rfl, rfl, rfl, rfl⟩)))⟩
theorem witness_chunkingIrrelevant : ([[0x7E], [0x00, 0xBF, 0x40]] : List (List Byte)).flatten
    = ([[0x7E, 0x00], [], [0xBF, 0x40]] : List (List Byte)).flatten := by decide
/-- The streams of V24. -/
theorem witness_garbageFramePartial :
    sof ∉ ([0x00, 0x13, 0xFF, 0x55] : List Byte) ∧ ([0x41, 0x42] : List Byte).length ≤ 255
    ∧ ([0x43] : List Byte).length ≤ 255 ∧ ([0x41, 0xD1] : List Byte) ≠ []
    ∧ [0x7E, 0x01, 0x43] ++ [0x41, 0xD1] = buildFrame [0x43]
    ∧ sof ∉ ([0x01, 0x02, 0x03, 0x7D, 0x7F] : List Byte) := by decide
theorem witness_scanBufferBound :
    (scan [0x7E, 0xFF, 0x01]).buf = [sof, 0xFF, 0x01] ∧ [] ∈ (scan [0x7E, 0x00, 0xBF, 0x40]).out := by decide
theorem witness_hostWordRoundTrip :
    (Instr.ufSend 1 [0x7E]).wf = true ∧ (Instr.ufSend 1 [0x7E]).isHost = true
    ∧ decodeHost [0x21, 0x01, 0x00, 0x01, 0x7E] = .ok (.ufSend 1 [0x7E]) := ⟨rfl, rfl, rfl⟩
theorem witness_lineRoundTrip :
    longest.length ≤ 255 ∧ decodeLine 1 [0x7E, 0x00, 0xBF, 0x40] = .ok (.frame 1 [] 0xBF 0x40) := ⟨by decide, rfl⟩
theorem witness_stepRunsInstruction :
    decodeHost [0x03, 0x00] = .ok .crcRead ∧ decodeLine 0 [0x7E, 0x00, 0xBF, 0x40] = .ok (.frame 0 [] 0xBF 0x40)
    ∧ base.script = [] ∧ (withOp .rdReceive { base with script := [.resume 0 false] }).script = [.resume 0 false]
    ∧ ({ base with script := [.issue [0x03, 0x00]] } : State).script = [.issue [0x03, 0x00]]
    ∧ ({ base with script := [.agent .rdIrq] } : State).script = [.agent .rdIrq]
    ∧ ({ base with script := [.line 0 [0x7E, 0x00, 0xBF, 0x40]] } : State).script = [.line 0 [0x7E, 0x00, 0xBF, 0x40]] :=
  ⟨rfl, rfl, rfl, rfl, rfl, rfl, rfl⟩
theorem witness_illegalWord :
    decodeHost [0x05, 0x00] = .error (.unknownCode 0x05)
    ∧ (0x44 : Byte) ∉ ([0x01, 0x02, 0x03, 0x04, 0x10, 0x11, 0x20, 0x21, 0x22, 0x23, 0x30, 0x31, 0x32, 0x33,
        0x40, 0x41, 0x42, 0x43] : List Byte)
    ∧ (0x43 : Byte) ∈ ([0x01, 0x02, 0x03, 0x04, 0x10, 0x11, 0x40, 0x41, 0x42, 0x43] : List Byte) ∧ (1 : Byte) ≠ 0
    ∧ base.uarts.length ≤ (2 : Byte).toNat := ⟨rfl, by decide, by decide, by decide, by decide⟩
theorem witness_errorResponseBytes : (65535 : Nat) < 65536 ∧ (4294967295 : Nat) < 4294967296 ∧ (30 : Nat) ≤ 30
    ∧ longest.length < 65536 ∧ [longest, []].length < 65536 ∧ ∀ b ∈ [longest, []], b.length < 65536 := by decide
theorem witness_ufConstruct :
    (withU uF).uarts[(1 : Byte).toNat]? = some uF ∧ uF.lc ≠ .unconstructed
    ∧ (withU Uart.reset).uarts[(1 : Byte).toNat]? = some Uart.reset ∧ Uart.reset.lc = .unconstructed
    ∧ (1 : Word32) ≠ 0 := by decide
theorem witness_ufSendRuns :
    (withU uF).uarts[(1 : Byte).toNat]? = some uF ∧ uF.lc = .running ∧ uF.mode = .framed ∧ uF.uartOpen = true
    ∧ uF.sendLock = .free ∧ longest.length ≤ 255 ∧ 255 < (0 :: longest).length ∧ Uart.reset.lc ≠ .running := by decide
theorem witness_ufSendRuns_ticket : (withU uF).FreshTicket := by unfold State.FreshTicket; decide
theorem witness_sendRows :
    (withOp (.send 1 [0x7E, 0x00] .waitLock) (withU uF)).findOp 0 = some (.send 1 [0x7E, 0x00] .waitLock)
    ∧ (withU uF).uarts[1]? = some uF ∧ uF.sendLock = .free
    ∧ (withU { uF with sendLock := taken }).uarts[1]? = some { uF with sendLock := taken } ∧ taken ≠ .free
    ∧ sending.findOp 0 = some (.send 1 (buildFrame [0x43]) (.write 1))
    ∧ (sending.uarts[1]?).map (fun u => (u.uartOpen, u.dir)) = some (true, .tx)
    ∧ (buildFrame [0x43])[1]? = some 0x01 := by decide
theorem witness_sendRows_ends :
    [SendSeq.toTx, .flush, .hold, .toRx, .done].map
        (fun q => (withOp (.send 1 [0x7E] q) (withU uF)).findOp 0)
      = [.toTx, .flush, .hold, .toRx, .done].map (fun q => some (.send 1 [0x7E] q)) := by decide
theorem witness_ufReadFrame :
    Uart.reset.lc ≠ .running ∧ uF.lc = .running ∧ uF.mode = .framed ∧ uF.rxq = []
    ∧ ({ uF with rxq := [[], [1]] } : Uart).rxq = [] :: [[1]]
    ∧ (withU uF).uarts[(1 : Byte).toNat]? = some uF
    ∧ (withOp (.readFrame 1 true) (withU uF)).findOp 0 = some (.readFrame 1 true)
    ∧ (withOp (.readFrame 1 false) (withU uF)).findOp 0 = some (.readFrame 1 false) := by decide
theorem witness_ufShutdownRuns :
    (withU uF).uarts[(1 : Byte).toNat]? = some uF ∧ uF.mode = .framed ∧ (withU uF).shutdownInProgress 1 = false
    ∧ uF.lc = .running ∧ (withU uF).sendInProgress 1 = false ∧ (withU uF).ops = [] ∧ uF.seqUfRx = .running
    ∧ ({ uF with seqUfRx := .stopped } : Uart).seqUfRx = .stopped ∧ Uart.reset.mode = .framed
    ∧ Uart.reset.lc ≠ .running := by decide
/-- Each row on the same instance, SHUT, with a receiver that backs off and with one that has stopped. -/
theorem witness_ufShutdownRuns_rows :
    let u := { uF with lc := .shut, run := false, seqUfRx := .backoff }
    [UfShut.join, .close, .release].map (fun st => (withOp (.ufShutdown 1 st) (withU u)).findOp 0)
      = [.join, .close, .release].map (fun st => some (.ufShutdown 1 st))
    ∧ (withOp (.ufShutdown 1 .join) (withU u)).uarts[1]? = some u ∧ u.seqUfRx ≠ .stopped
    ∧ ({ u with seqUfRx := .stopped } : Uart).seqUfRx = .stopped := by decide
theorem witness_uartStateErrors :
    (withU uR).uarts[(1 : Byte).toNat]? = some uR ∧ uR.mode ≠ .framed ∧ uF.mode ≠ .raw ∧ Uart.reset.lc ≠ .running
    ∧ (withU uR).shutdownInProgress 1 = false ∧ uR.lc ≠ .unconstructed := by decide
theorem witness_ufRxRows :
    (withU uF).uarts[(1 : Byte).toNat]? = some uF ∧ uF.seqUfRx = .running ∧ uF.run = true ∧ uF.readErr = false
    ∧ uF.uartOpen = true ∧ uF.rxAvail = [] ∧ ({ uF with rxAvail := [0x7E] } : Uart).rxAvail ≠ []
    ∧ ({ uF with readErr := true } : Uart).readErr = true ∧ ({ uF with run := false } : Uart).run = false
    ∧ ({ uF with seqUfRx := .backoff } : Uart).seqUfRx = .backoff ∧ Uart.reset.seqUfRx = .stopped
    ∧ ({ uF with uartOpen := false } : Uart).uartOpen = false := by decide
theorem witness_frameArrives :
    (withU uF).uarts[(1 : Byte).toNat]? = some uF ∧ uF.uartOpen = true ∧ uF.dir ≠ .tx ∧ base.cfg.echoInTx = false
    ∧ ({ uF with dir := .tx } : Uart).dir = .tx ∧ Uart.reset.uartOpen = false
    ∧ base.uarts[(2 : Byte).toNat]? = none
    ∧ ({ base with script := [.line 1 [0x00, 0x13]] } : State).script = [.line 1 [0x00, 0x13]]
    ∧ ({ base with script := [.lineError 1] } : State).script = [.lineError 1] := by decide
theorem witness_loopbackDelivers :
    (withU uF).uarts[(1 : Byte).toNat]? = some uF ∧ uF.seqUfRx = .running ∧ uF.run = true ∧ uF.readErr = false
    ∧ uF.uartOpen = true ∧ uF.dir = .rx ∧ uF.rxBuf = [] ∧ uF.rxAvail = [] ∧ uF.seqScan = .hunt
    ∧ ∀ p ∈ [[0x43], [], longest], p.length ≤ 255 := by decide
theorem witness_urConstruct :
    (withU Uart.reset).uarts[(1 : Byte).toNat]? = some Uart.reset ∧ Uart.reset.lc = .unconstructed
    ∧ (1200 ≤ (1200 : Word32).toNat ∧ (2000000 : Word32).toNat ≤ 2000000)
    ∧ ¬ (1200 ≤ (1199 : Word32).toNat) ∧ ¬ ((2000001 : Word32).toNat ≤ 2000000)
    ∧ (5 ≤ (5 : Byte).toNat ∧ (9 : Byte).toNat ≤ 9) ∧ ¬ (5 ≤ (4 : Byte).toNat) ∧ ¬ ((10 : Byte).toNat ≤ 9)
    ∧ (1 ≤ (1 : Byte).toNat ∧ (2 : Byte).toNat ≤ 2) ∧ ¬ (1 ≤ (0 : Byte).toNat) ∧ ¬ ((3 : Byte).toNat ≤ 2)
    ∧ (0x6E : Byte) ∉ ([0x4E, 0x45, 0x4F, 0x4D, 0x53] : List Byte)
    ∧ ((0x53 : Byte), Parity.s) ∈ [((0x4E : Byte), Parity.n), (0x45, .e), (0x4F, .o), (0x4D, .m), (0x53, .s)] := by decide
theorem witness_urWriteRead :
    (withU uR).uarts[(1 : Byte).toNat]? = some uR ∧ uR.lc = .running ∧ uR.mode = .raw ∧ uR.databits = 8
    ∧ uR.txLock = .free ∧ uR.rxLock = .free ∧ ({ uR with txLock := taken } : Uart).txLock ≠ .free
    ∧ ({ uR with rxLock := taken } : Uart).rxLock ≠ .free ∧ Uart.reset.lc ≠ .running
    ∧ (withOp (.urWrite 1 [1]) (withU uR)).findOp 0 = some (.urWrite 1 [1])
    ∧ (withOp (.urRead 1) (withU uR)).findOp 0 = some (.urRead 1) := by decide
theorem witness_urTxRows :
    (withU uR).uarts[(1 : Byte).toNat]? = some uR ∧ uR.databits = 8 ∧ uR.seqUrTx = .wait ∧ uR.shutReq = false
    ∧ uR.txPend = [] ∧ uR.txLock = .free ∧ ({ uR with txPend := [1] } : Uart).txPend ≠ []
    ∧ ({ uR with shutReq := true } : Uart).shutReq = true ∧ ({ uR with seqUrTx := .drained } : Uart).seqUrTx = .drained
    ∧ ({ uR with seqUrTx := .writing, dir := .tx } : Uart).dir = .tx ∧ uR.uartOpen = true
    ∧ ({ uR with seqUrTx := .txOff } : Uart).seqUrTx = .txOff
    ∧ ({ uR with seqUrTx := .stopped } : Uart).seqUrTx = .stopped := by decide
theorem witness_urRxRows :
    (withU uR).uarts[(1 : Byte).toNat]? = some uR ∧ uR.databits = 8 ∧ uR.seqUrRx = .waitReady ∧ uR.shutReq = false
    ∧ uR.uartOpen = true ∧ uR.rxAvail = [] ∧ ({ uR with rxAvail := [1] } : Uart).rxAvail ≠ []
    ∧ ({ uR with shutReq := true } : Uart).shutReq = true ∧ uR.rxLock = .free
    ∧ ({ uR with seqUrRx := .draining [1] } : Uart).seqUrRx = .draining [1] ∧ taken ≠ .free
    ∧ ({ uR with seqUrRx := .stopped } : Uart).seqUrRx = .stopped := by decide
theorem witness_writersContiguous :
    (withU uR).uarts[(1 : Byte).toNat]? = some uR ∧ uR.lc = .running ∧ uR.mode = .raw ∧ uR.databits = 8
    ∧ uR.txLock = .free ∧ uR.uartOpen = true ∧ uR.dir = .rx ∧ uR.seqUrTx = .wait ∧ uR.shutReq = false
    ∧ uR.txPend = [] ∧ uR.txBatch = [] ∧ (withU uR).cfg.echoInTx = false := by decide
theorem witness_urShutdownRuns :
    let u := { uR with txPend := [0x78] }
    (withU u).uarts[(1 : Byte).toNat]? = some u ∧ u.mode = .raw ∧ (withU u).shutdownInProgress 1 = false
    ∧ u.lc = .running ∧ u.databits = 8 ∧ u.seqUrTx = .wait ∧ u.seqUrRx = .waitReady ∧ u.shutReq = false
    ∧ u.txLock = .free ∧ u.txBatch = [] ∧ u.uartOpen = true ∧ u.dir = .rx ∧ (withU u).cfg.echoInTx = false
    ∧ (withU u).ops = [] ∧ ({ u with lc := .shut } : Uart).lc ≠ .running := by decide
theorem witness_urShutdownRuns_rows :
    [UrShut.drain, .flag, .join, .close].map (fun st => (withOp (.urShutdown 1 st) (withU uR)).findOp 0)
      = [.drain, .flag, .join, .close].map (fun st => some (.urShutdown 1 st))
    ∧ uR.txPend = [] ∧ uR.seqUrTx = .wait ∧ uR.seqUrRx ≠ .stopped
    ∧ Uart.reset.seqUrTx = .stopped ∧ Uart.reset.seqUrRx = .stopped
    ∧ ({ uR with txPend := [1] } : Uart).txPend ≠ [] := by decide
theorem witness_dataBitsRefused :
    (withU Uart.reset).uarts[(1 : Byte).toNat]? = some Uart.reset ∧ Uart.reset.lc = .unconstructed
    ∧ 5 ≤ (5 : Byte).toNat ∧ (9 : Byte).toNat ≤ 9
    ∧ ({ uR with databits := 9 } : Uart).lc = .running ∧ ({ uR with databits := 9 } : Uart).mode = .raw
    ∧ ({ uR with databits := 9 } : Uart).databits ≠ 8 ∧ uR.seqUrTx ≠ .stopped ∧ uR.seqUrRx ≠ .stopped := by decide
theorem witness_meaninglessRunsRefused :
    (sending.uarts[(1 : Byte).toNat]?).map (fun u => (u.mode, u.lc)) = some (.framed, .running)
    ∧ sending.shutdownInProgress 1 = false ∧ sending.sendInProgress 1 = true
    ∧ (withOp (.ufShutdown 1 .join) (withU { uF with lc := .shut })).shutdownInProgress 1 = true ∧ uF.mode = .framed
    ∧ (withOp (.urShutdown 1 .join) (withU { uR with lc := .shut })).shutdownInProgress 1 = true ∧ uR.mode = .raw
    ∧ (withOp (.urShutdown 1 .join) (withU { uR with seqUrTx := .drained })).findOp 0
        = some (.urShutdown (1 : Byte).toNat .join) := by decide
theorem witness_radioCommands :
    rR.spiLock = .free ∧ rR.spiOpen = true ∧ ({ rR with spiOpen := false } : Radio).spiOpen = false
    ∧ closing.radio.spiLock ≠ .free := by decide
theorem witness_pollEndsAtFirstReady :
    let s := { withR rR with spiIn := [[0xFE, 9], [0x00, 9]].flatten ++ 0xFF :: ([7] ++ [1]), pollLimits := [2, 5] }
    s.radio.spiLock = .free ∧ s.radio.spiOpen = true
    ∧ (∀ r ∈ ([[0xFE, 9], [0x00, 9]] : List (List Byte)), r.length = 1 + 1 ∧ r.head? ≠ some s.cfg.ctsReady)
    ∧ ([7] : List Byte).length = 1 ∧ s.spiIn = [[0xFE, 9], [0x00, 9]].flatten ++ s.cfg.ctsReady :: ([7] ++ [1])
    ∧ s.pollLimits = 2 :: [5] ∧ ([[0xFE, 9], [0x00, 9]] : List (List Byte)).length ≤ 2 := by decide
/-- The nine commands, each with its bytes and its response length. -/
theorem witness_pollEndsAtFirstReady_commands :
    RadioCommand cfg .rcPowerUp [0xA1, 0xA2, 0x0A] 0 ∧ RadioCommand cfg .rcGpioCfg [0xB1, 0x0B, 0x0C] 0
    ∧ RadioCommand cfg (.rcSetProperty ⟨7, 1, 2, [9]⟩) [0xB2, 7, 1, 2, 9] 0 ∧ RadioCommand cfg .rcClearTxFifo [0xB3] 0
    ∧ RadioCommand cfg (.rcWriteTxFifo [1]) [0xB4, 1] 0
    ∧ RadioCommand cfg (.rcStartTx 5 3) (0xB5 :: Config.argsStartTx 5 3) 0
    ∧ RadioCommand cfg (.rcStartRx 5) (0xB6 :: Config.argsStartRx 5) 0 ∧ RadioCommand cfg .rcRxLen [0xB7] 2
    ∧ RadioCommand cfg (.rcReadRxFifo 1) [0xB8] 1 := by
  simp [RadioCommand, cfg, hd, Header.bytes, propertyBytes]
theorem witness_readStatus :
    (withR rR).radio.spiLock = .free ∧ (withR rR).radio.spiOpen = true
    ∧ (answers [0xFF] (withR rR)).spiIn = 0xFF :: [] ∧ base.radio.spiLock = .free ∧ base.radio.spiOpen = false
    ∧ closing.radio.spiLock ≠ .free := by decide
theorem witness_rdConstructGuard : rR.alloc = true ∧ rFailed.alloc = true ∧ Radio.reset.alloc = false := by decide
theorem witness_rdConstructParse :
    (withOp (.rdConstruct 256 []) (withR { Radio.reset with seqCons := .s1Parse })).findOp 0 = some (.rdConstruct 256 [])
    ∧ ({ Radio.reset with seqCons := .s1Parse } : Radio).seqCons = .s1Parse ∧ 255 < (256 : Word16).toNat
    ∧ (255 : Word16).toNat ≤ 255 ∧ (List.replicate 30 (default : PropRecord)).length ≠ 31
    ∧ (List.replicate 31 (default : PropRecord)).length = 31 := by decide
theorem witness_rdConstructRuns :
    let s := answers (List.replicate 35 0xFF) base
    s.radio.alloc = false ∧ s.radio.spiLock = .free ∧ s.ops = [] ∧ (255 : Word16).toNat ≤ 255
    ∧ (List.replicate 31 (default : PropRecord)).length = 31
    ∧ s.spiIn = List.replicate (34 + s.cfg.intOverrides.length) s.cfg.ctsReady ++ [] := by decide
/-- One state for each kind of row, S5 and S6 at their last records. -/
theorem witness_constructionHandshake :
    let s := fun q => withOp (.rdConstruct 5 []) (withR { rR with lc := .constructing, seqCons := q })
    (s (.s5Prop 30)).findOp 0 = some (.rdConstruct 5 []) ∧ (s (.s5Prop 30)).radio.spiLock = .free
    ∧ (s (.s5Prop 30)).radio.spiOpen = true
    ∧ consRow (s .s3PowerUp) = some ([0xA1, 0xA2, 0x0A], .powerUp, .s4Gpio)
    ∧ consRow (s .s4Gpio) = some ([0xB1, 0x0B, 0x0C], .gpio, .s5Prop 0)
    ∧ consRow (s (.s5Prop 30)) = some ([0xB2, 0, 0, 0], .prop 30, .s6Int 0)
    ∧ consRow (s (.s6Int 0)) = some ([0xB2, 1, 1, 0, 0x20], .int, .s7Irq) := by decide
theorem witness_constructionHandshake_rx :
    consRow (withR { rR with seqCons := .s8Rx }) = some (0xB6 :: Config.argsStartRx 5, .rx, .s9Start) := rfl
/-- The rows that issue no command, and a row of S3 that finds SPILOCK taken. -/
theorem witness_constructionHandshake_rows :
    let s := fun q => withOp (.rdConstruct 5 []) (withR { rR with lc := .constructing, seqCons := q })
    let held := withOp (.rdConstruct 5 []) (withR { rR with lc := .constructing, seqCons := .s3PowerUp, spiLock := taken })
    [ConsSeq.s2Reset .assert, .s2Reset .hold, .s2Reset .release, .s2Reset .settle, .s7Irq, .s9Start].map
        (fun q => ((s q).findOp 0, (s q).radio.seqCons))
      = [.s2Reset .assert, .s2Reset .hold, .s2Reset .release, .s2Reset .settle, .s7Irq, .s9Start].map
        (fun q => (some (.rdConstruct 5 []), q))
    ∧ held.findOp 0 = some (.rdConstruct 5 []) ∧ held.radio.spiLock ≠ .free
    ∧ consRow held = some ([0xA1, 0xA2, 0x0A], .powerUp, .s4Gpio) := by decide
/-- A construction before S7 whose next stimulus is the power-up row. -/
theorem witness_constructionHandshake_order :
    let s := { withOp (.rdConstruct 5 []) (withR { rR with lc := .constructing, irqEn := false, seqCons := .s3PowerUp })
                with script := [.resume 0 false] }
    s.radio.lc = .constructing ∧ s.radio.irqEn = false ∧ ∃ t, step s = .next t := ⟨rfl, rfl, _, rfl⟩
theorem witness_failedIsTerminal :
    FailedInv (withR rFailed) ∧ ∃ t, step { withR rFailed with script := [.agent .rdIrq] } = .next t :=
  ⟨⟨rfl, rfl, rfl, by simp [withR, base, State.reset]⟩, _, rfl⟩
theorem witness_rdTransmit :
    Radio.reset.lc ≠ .running ∧ rR.lc = .running ∧ rR.txqLock = .free
    ∧ ({ rR with txqLock := taken } : Radio).txqLock ≠ .free
    ∧ ([[0xAA], [], [0xBB]] : List (List Byte)) = [[0xAA]] ++ [] :: [[0xBB]]
    ∧ (∀ q ∈ ([[0xAA], List.replicate 64 0] : List (List Byte)), 0 < q.length ∧ q.length ≤ 64)
    ∧ ¬ (0 < (List.replicate 65 (0 : Byte)).length ∧ (List.replicate 65 (0 : Byte)).length ≤ 64)
    ∧ ¬ (0 < ([] : List Byte).length ∧ ([] : List Byte).length ≤ 64)
    ∧ (withOp (.rdTransmit [[1]]) (withR rR)).findOp 0 = some (.rdTransmit [[1]]) := by decide
theorem witness_rdTxRows :
    let building := { rR with lc := .constructing, seqRdTx := .rearm }
    rFailed.lc = .failed ∧ building.lc = .constructing ∧ building.spiOpen = true ∧ building.seqRdTx = .rearm
    ∧ building.shutdown = false ∧ ({ rR with seqRdTx := .batch 0 .write } : Radio).seqRdTx = .batch 0 .write
    ∧ rR.lc ≠ .failed ∧ rR.lc ≠ .constructing ∧ rR.seqRdTx = .wait ∧ rR.shutdown = false ∧ rR.txq = [] ∧ rR.txqLock = .free
    ∧ ({ rR with shutdown := true } : Radio).shutdown = true ∧ ({ rR with txq := [[1]] } : Radio).txq ≠ []
    ∧ taken ≠ .free ∧ ({ rR with seqRdTx := .batch 0 .clear } : Radio).seqRdTx = .batch 0 .clear
    ∧ ({ rR with seqRdTx := .rearm } : Radio).seqRdTx = .rearm
    ∧ ({ rR with seqRdTx := .batch 0 .start, txBatchR := [[1]] } : Radio).txBatchR[0]? = some [1]
    ∧ rR.spiLock = .free ∧ rR.spiOpen = true ∧ ({ rR with spiOpen := false } : Radio).spiOpen = false
    ∧ ({ rR with seqRdTx := .stopped } : Radio).seqRdTx = .stopped := by decide
theorem witness_rdTxBatchRuns :
    let s := answers (List.replicate 7 0xFF ++ [1]) (withR { rR with txq := [[1, 2, 3], [0xAA]] })
    s.radio.lc ≠ .failed ∧ s.radio.lc ≠ .constructing ∧ s.radio.seqRdTx = .wait ∧ s.radio.shutdown = false ∧ s.radio.txq ≠ []
    ∧ s.radio.txqLock = .free ∧ s.radio.spiLock = .free ∧ s.radio.spiOpen = true
    ∧ s.spiIn = List.replicate (3 * s.radio.txq.length + 1) s.cfg.ctsReady ++ [1] := by decide
theorem witness_rdIrqRows :
    let early := { rR with lc := .constructing, irqEn := false, seqRdIrq := .len }
    let late := { rR with lc := .constructing }
    rFailed.lc = .failed ∧ early.lc = .constructing ∧ early.irqEn = false ∧ early.spiOpen = true ∧ early.seqRdIrq = .len
    ∧ late.lc ≠ .failed ∧ (late.lc = .constructing → late.irqEn = true)
    ∧ rR.lc ≠ .failed ∧ (rR.lc = .constructing → rR.irqEn = true) ∧ rR.seqRdIrq = .idle ∧ rR.irqEn = true ∧ rR.irqPend = 0
    ∧ 0 < ({ rR with irqPend := 1 } : Radio).irqPend ∧ ({ rR with irqEn := false } : Radio).irqEn = false
    ∧ ({ rR with seqRdIrq := .len } : Radio).seqRdIrq = .len
    ∧ ({ rR with seqRdIrq := .data 65535 } : Radio).seqRdIrq = .data 65535
    ∧ ({ rR with seqRdIrq := .store [1] } : Radio).seqRdIrq = .store [1]
    ∧ rR.spiLock = .free ∧ rR.spiOpen = true ∧ rR.rxlLock = .free ∧ taken ≠ .free
    ∧ ({ rR with spiOpen := false } : Radio).spiOpen = false := by decide
theorem witness_receiveRuns :
    let s := answers [0xFF, 0x00, 0x03, 0xFF, 0xAA, 0xBB, 0xCC] (withR { rR with irqPend := 1 })
    s.radio.lc = .running ∧ s.radio.seqRdIrq = .idle ∧ s.radio.irqEn = true ∧ s.radio.irqPend = 1
    ∧ s.radio.spiLock = .free ∧ s.radio.spiOpen = true ∧ s.radio.rxlLock = .free
    ∧ ([0xAA, 0xBB, 0xCC] : List Byte).length = 256 * (0x00 : Byte).toNat + (0x03 : Byte).toNat
    ∧ s.spiIn = s.cfg.ctsReady :: 0x00 :: 0x03 :: s.cfg.ctsReady :: ([0xAA, 0xBB, 0xCC] ++ []) := by decide
theorem witness_rxLenValue :
    ({ rR with seqRdIrq := .len } : Radio).seqRdIrq = .len ∧ rR.seqRdIrq ≠ .len := by decide
theorem witness_rdReceive :
    Radio.reset.lc ≠ .running ∧ rR.lc = .running ∧ rR.rxlLock = .free
    ∧ ({ rR with rxlLock := taken } : Radio).rxlLock ≠ .free
    ∧ (withOp .rdReceive (withR rR)).findOp 0 = some .rdReceive := by decide
theorem witness_rdShutdownRuns :
    Radio.reset.lc ≠ .running ∧ rR.lc = .running ∧ rR.txq = [] ∧ rR.spiLock = .free ∧ (withR rR).ops = []
    ∧ ({ rR with txq := [[1]] } : Radio).txq ≠ [] ∧ closing.radio.spiLock ≠ .free
    ∧ [RdShut.drain, .flag, .lock, .close, .finish].map (fun st => (withOp (.rdShutdown st) (withR rR)).findOp 0)
      = [.drain, .flag, .lock, .close, .finish].map (fun st => some (.rdShutdown st)) := by decide
theorem witness_irqEdgesCounted :
    ({ withR rR with script := [.irq false] } : State).script = [.irq false]
    ∧ fallingEdges true [false, false, true, false] = 2 := by decide
theorem witness_spiDiscipline :
    (∃ t, step (answers [0xFF, 0x00, 0x03] (withR { rR with seqRdIrq := .len, irqLine := true })) = .next t)
    ∧ HandshakeInv (withR rR)
    ∧ Handshaken cfg [([0xB7], []), ([0xB0], [0x00, 1, 2]), ([0xB0], [0xFF, 0, 3])] :=
  ⟨⟨_, rfl⟩, ⟨[], rfl, by simp⟩,
    ⟨[([0xB7], 2, [[0x00, 1, 2], [0xFF, 0, 3]])], rfl, by simp [PollReads, cfg]⟩⟩
theorem witness_hardResetStep : ({ sending with script := [.hardReset] } : State).script = [.hardReset] := by decide
theorem witness_instancesIsolated :
    let s := { sending with script := [.resume 0 false] }
    s.script = [.resume 0 false] ∧ (Stimulus.resume 0 false).touches s = some 1
    ∧ (Stimulus.resume 0 false).touches s ≠ some 0 ∧ Stimulus.resume 0 false ≠ .hardReset := by decide
theorem witness_instancesIsolated_step :
    ∃ t, step { sending with script := [.resume 0 false] } = .next t := ⟨_, rfl⟩
/-- A send in progress, DIR = TX and one byte on the line, and its next row. -/
theorem witness_lineInvKept :
    LineInv { sending with script := [.resume 0 false] }
    ∧ ∃ t, step { sending with script := [.resume 0 false] } = .next t := by
  refine ⟨⟨⟨by decide, by decide⟩, ?_, ?_⟩, _, rfl⟩
  · intro i u h
    match i with
    | 0 =>
      obtain rfl : Uart.reset = u := Option.some.inj h
      exact ⟨by decide, by decide, by decide, by decide, by decide, fun h => absurd h (by decide)⟩
    | 1 =>
      obtain rfl := Option.some.inj h
      exact ⟨by decide, by decide, by decide, by decide, by decide,
        fun _ => .inr (.inr ⟨0, _, _, List.mem_singleton.2 rfl, rfl⟩)⟩
    | n + 2 => exact nomatch h
  · intro t op h
    obtain ⟨rfl, rfl⟩ := Prod.mk.inj (List.mem_singleton.1 h)
    exact ⟨_, rfl, by decide, by decide, by decide, by decide⟩
theorem witness_uartInvsKept :
    ScannerInv (withU uF) ∧ UartConfigInv (withU uR) ∧ ∃ t, step (withU uF) = .next t := by
  refine ⟨?_, ?_, _, rfl⟩ <;> intro u h
  rotate_left
  · rcases List.mem_cons.1 h with rfl | h
    · exact ⟨fun h => absurd rfl h, rfl, rfl⟩
    · obtain rfl := List.mem_singleton.1 h
      exact ⟨fun _ => ⟨by decide, by decide, by decide⟩, rfl, rfl⟩
  rcases List.mem_cons.1 h with rfl | h
  · exact ⟨.inl ⟨rfl, rfl⟩, by decide⟩
  · obtain rfl := List.mem_singleton.1 h
    exact ⟨.inl ⟨rfl, rfl⟩, by decide⟩
/-- A framed controller whose shutdown is over while its receiver still runs, and the receiver's next step. -/
theorem witness_uartInvsKept_shut :
    let u := { uF with lc := .shut, run := false, uartOpen := false, dir := .released }
    let s := { withU u with script := [.agent (.ufRx 1)] }
    LineInv s ∧ s.uarts[1]? = some u ∧ u.lc = .shut ∧ u.uartOpen = false ∧ u.Terminated ∧ ∃ t, step s = .next t := by
  refine ⟨⟨⟨by decide, by decide⟩, ?_, fun t op h => absurd h (List.not_mem_nil)⟩, rfl, rfl, rfl,
    ⟨rfl, rfl, rfl, .inl rfl⟩, _, rfl⟩
  intro i u h
  match i with
  | 0 =>
    obtain rfl : Uart.reset = u := Option.some.inj h
    exact ⟨by decide, by decide, by decide, by decide, by decide, fun h => absurd h (by decide)⟩
  | 1 =>
    obtain rfl := Option.some.inj h
    exact ⟨by decide, by decide, by decide, by decide, by decide, fun h => absurd h (by decide)⟩
  | n + 2 => exact nomatch h
/-- A shutdown that holds SPILOCK, and its next row. -/
theorem witness_radioInvsKept :
    GuardInv { closing with script := [.resume 0 false] }
    ∧ RadioDataInv { closing with script := [.resume 0 false] }
    ∧ ∃ t, step { closing with script := [.resume 0 false] } = .next t := by
  refine ⟨⟨⟨by decide, by decide⟩, by decide, ?_, ?_, by decide, .inr ⟨0, rfl, by decide⟩, ?_⟩, ?_, _, rfl⟩
  · intro t ch ps h
    exact nomatch (Prod.mk.inj (List.mem_singleton.1 h)).2
  · intro _ _ _
    decide
  · rintro (h | h | ⟨t, h⟩)
    · exact nomatch h
    · exact nomatch h
    · exact nomatch (Prod.mk.inj (List.mem_singleton.1 h)).2
  · refine ⟨by decide, by decide, ?_, by decide, ?_, ?_, by decide, rfl, rfl, rfl⟩
    · intro t ps h
      exact nomatch (Prod.mk.inj (List.mem_singleton.1 h)).2
    · intro n h
      exact nomatch h
    · intro d h
      exact nomatch h

end Sys2Proof.Tests
end

section
/-! PROOFS. The reset values of 10_state.md R70. -/

namespace Sys2Proof.Machine

/-! ### Operations in progress -/

/-- With no operation in progress no ticket names one. -/
theorem State.findOp_of_ops_nil {s : State} (h : s.ops = []) (t : Nat) : s.findOp t = none := by
  simp [State.findOp, h]

/-- SEQ_SEND is no register of its own: it is read off the `UF.SEND` in progress, and rests at IDLE without one (R33). -/
theorem State.seqSend_of_findOp_none {s : State} {t : Nat} (h : s.findOp t = none) : s.seqSend t = .idle := by
  simp [State.seqSend, h]

/-! ### The parts of the reset state -/

@[simp] theorem State.reset_ops : State.reset.ops = [] := rfl
@[simp] theorem State.reset_radio : State.reset.radio = Radio.reset := rfl

/-- The number of instances is a parameter without a value (R30), so it is not named here. -/
theorem State.reset_uarts_replicate : ∃ n, State.reset.uarts = List.replicate n Uart.reset :=
  ⟨Config.uartCount, rfl⟩

@[simp] theorem State.reset_seqSend (t : Nat) : State.reset.seqSend t = .idle :=
  State.seqSend_of_findOp_none (State.findOp_of_ops_nil State.reset_ops t)

/-- Settles O54. The CRC unit and the list of controllers come first; SEQ_SEND is `State.reset_seqSend`, and every other
row is a register of one UART controller or of the radio controller, read off its reset value. -/
theorem resetValues : Obligations.ResetValues := by
  unfold Obligations.ResetValues
  refine ⟨rfl, rfl, State.reset_uarts_replicate, ?_⟩
  simp [Uart.reset, Radio.reset]

end Sys2Proof.Machine
end

section
/-! PROOFS. The raw UART controller and the number of data bits (30_encoding.md R116). -/

namespace Sys2Proof.Machine

/-! ### What an operation of the raw controller does before its own effect -/

theorem whenBytes_refused {u : Uart} (h : u.databits ≠ 8) (k : Out) : whenBytes u k = .refused .dataBitsUnmapped :=
  if_neg h

/-! ### Construction (43_uart_raw.md R220) -/

/-- Operands inside all four ranges pass the checks unchanged. -/
theorem checkRawConfig_ok {baud : Word32} {d st p : Byte} {q : Parity}
    (hbaud : 1200 ≤ baud.toNat ∧ baud.toNat ≤ 2000000) (hd : 5 ≤ d.toNat ∧ d.toNat ≤ 9)
    (hst : 1 ≤ st.toNat ∧ st.toNat ≤ 2) (hp : parityOf p = some q) :
    checkRawConfig baud d st p = .ok ⟨baud.toNat, d.toNat, st.toNat, q⟩ := by
  have not_outside {lo hi n : Nat} (h : lo ≤ n ∧ n ≤ hi) : ¬ (n < lo || hi < n) = true := by
    simp [h.1, h.2]
  rw [checkRawConfig, if_neg (not_outside hbaud), if_neg (not_outside hd), if_neg (not_outside hst), hp]

/-- A first construction whose operands pass the checks is answered OK in the state it reaches. -/
theorem exec_urConstruct_ok {s : State} {inst : Byte} {u : Uart} {baud : Word32} {d st p : Byte} {c : RawConfig}
    (hu : s.uarts[inst.toNat]? = some u) (hlc : u.lc = .unconstructed) (hc : checkRawConfig baud d st p = .ok c) :
    exec (.urConstruct inst baud d st p) s
      = .next ((s.setUart inst.toNat (u.constructRaw c)).answered (.ok .none)) := by
  change execUrConstruct inst baud d st p s = _
  rw [execUrConstruct, onUart_some inst s u _ hu, if_pos hlc, hc]
  rfl

/-! ### The data path (R221, R225, R223, R224) -/

section
variable {s : State} {inst : Byte} {u : Uart} (hu : s.uarts[inst.toNat]? = some u)
include hu

/-- On a running raw controller the data bits are what decides whether `UR.WRITE` has a meaning. -/
theorem exec_urWrite_running (hlc : u.lc = .running) (hm : u.mode = .raw) (d : List Byte) :
    exec (.urWrite inst d) s = whenBytes u (.next (
      match appendPending inst.toNat d u s.accept with
      | some s' => s'.answer s.nextTicket .none
      | none => s.accept.addOp s.nextTicket (.urWrite inst.toNat d))) := by
  change execUrWrite inst d s = _
  rw [execUrWrite, onUart_some inst s u _ hu]
  exact whenReady_yes _ _ _ _ _ hlc hm

theorem exec_urRead_running (hlc : u.lc = .running) (hm : u.mode = .raw) :
    exec (.urRead inst) s = whenBytes u (.next (
      match drainReceived inst.toNat u s.accept with
      | some (d, s') => s'.answer s.nextTicket (.bytes d)
      | none => s.accept.addOp s.nextTicket (.urRead inst.toNat))) := by
  change execUrRead inst s = _
  rw [execUrRead, onUart_some inst s u _ hu]
  exact whenReady_yes _ _ _ _ _ hlc hm

/-- UR_TX takes its rows in every lifecycle state; only a stopped agent is not held to the data bits. -/
theorem exec_urTxStep_live (hq : u.seqUrTx ≠ .stopped) :
    exec (.urTxStep inst) s = whenBytes u (.next (s.setUart inst.toNat (u.urTxStep s.cfg))) := by
  change execUrTxStep inst s = _
  simp only [execUrTxStep, hu, if_neg hq]

theorem exec_urRxStep_live (hq : u.seqUrRx ≠ .stopped) :
    exec (.urRxStep inst) s = whenBytes u (.next (s.setUart inst.toNat u.urRxStep)) := by
  change execUrRxStep inst s = _
  simp only [execUrRxStep, hu, if_neg hq]

end

/-- Settles O34. The construction passes the four checks; after it each of the four operations of the data path comes to
the same test of the data bits, `whenBytes`. -/
theorem dataBitsRefused : Obligations.DataBitsRefused := by
  unfold Obligations.DataBitsRefused
  intro s inst u hu
  constructor
  · intro d hlc hlo hhi
    have hc : checkRawConfig 9600 d 1 0x4E = .ok ⟨9600, d.toNat, 1, .n⟩ :=
      checkRawConfig_ok (by decide) ⟨hlo, hhi⟩ (by decide) rfl
    exact ⟨_, exec_urConstruct_ok hu hlc hc, rfl⟩
  · intro hlc hm hbits
    refine ⟨fun d => ?_, ?_, fun hq => ?_, fun hq => ?_⟩
    · rw [exec_urWrite_running hu hlc hm, whenBytes_refused hbits]
    · rw [exec_urRead_running hu hlc hm, whenBytes_refused hbits]
    · rw [exec_urTxStep_live hu hq, whenBytes_refused hbits]
    · rw [exec_urRxStep_live hu hq, whenBytes_refused hbits]

end Sys2Proof.Machine
end

section
/-! PROOFS. The CRC unit (40_crc.md). -/

namespace Sys2Proof

/-- Flipping one bit changes the word; the mask is a number, cast to the word's width. -/
theorem xor_bit_ne_self {w : Nat} (x : BitVec w) {k : Nat} (hk : k < w) :
    x ^^^ ((1 <<< k : Nat) : BitVec w) ≠ x := by
  intro h
  have hmask : (BitVec.ofNat w (1 <<< k)).getLsbD k = true := by
    rw [BitVec.getLsbD_ofNat, Nat.one_shiftLeft, Nat.testBit_two_pow_self, decide_eq_true hk, Bool.true_and]
  have hbit : (x ^^^ BitVec.ofNat w (1 <<< k)).getLsbD k = x.getLsbD k := congrArg (·.getLsbD k) h
  rw [BitVec.getLsbD_xor, hmask] at hbit
  simp at hbit

theorem word16_getLsbD (hi lo : Byte) (i : Nat) :
    (word16 hi lo).getLsbD i = if i < 8 then lo.getLsbD i else hi.getLsbD (i - 8) := BitVec.getLsbD_append

namespace Machine

/-! ### The shift step (R152) and its bit-serial form (R155) -/

/-- A data word may meet the register all at once before a shift, or bit 0 in the shift and the other bits after it. -/
theorem crcShift_xor (c x : Word16) : crcShift (c ^^^ x) = crcBit c (x.getLsbD 0) ^^^ (x >>> 1) := by
  unfold crcShift crcBit
  rw [BitVec.getLsbD_xor, BitVec.ushiftRight_xor_distrib]
  split
  · ac_rfl
  · rfl

/-- No 1 falls out of an even word. -/
theorem crcShift_of_even {c : Word16} (h : c.getLsbD 0 = false) : crcShift c = c >>> 1 := by
  rw [crcShift, h, if_neg Bool.false_ne_true]

/-- The polynomial has bit 15 and a shifted word has not, so the top bit shows which bit fell out. -/
theorem crcShift_getLsbD_top (c : Word16) : (crcShift c).getLsbD 15 = c.getLsbD 0 := by
  unfold crcShift
  split
  · next hbit => simpa using hbit.symm
  · next hbit => simpa using hbit

theorem crcShift_injective : Function.Injective crcShift := by
  intro a b h
  have hlow : a.getLsbD 0 = b.getLsbD 0 := by
    rw [← crcShift_getLsbD_top, h, crcShift_getLsbD_top]
  have hhigh : a >>> 1 = b >>> 1 := by
    unfold crcShift at h
    rw [hlow] at h
    split at h
    · exact (BitVec.xor_left_inj _).1 h
    · exact h
  apply BitVec.eq_of_getLsbD_eq
  intro i hi
  cases i with
  | zero => exact hlow
  | succ i =>
    have := congrArg (·.getLsbD i) hhigh
    simpa [Nat.add_comm] using this

/-! ### Several shift steps -/

theorem crcShifts_eq_iterate (n : Nat) (c : Word16) : crcShifts n c = crcShift^[n] c := by
  induction n generalizing c with
  | zero => rfl
  | succ n ih => exact ih (crcShift c)

theorem crcShifts_injective (n : Nat) : Function.Injective (crcShifts n) := by
  rw [funext (crcShifts_eq_iterate n)]
  exact crcShift_injective.iterate n

/-- After `n` shifts bits 0 to `n - 1` of a data word have met the register serially; the others still stand above them. -/
theorem crcShifts_xor (n : Nat) (c x : Word16) :
    crcShifts n (c ^^^ x) = (List.range n).foldl (fun c k => crcBit c (x.getLsbD k)) c ^^^ (x >>> n) := by
  induction n with
  | zero => simp [crcShifts]
  | succ n ih =>
    rw [crcShifts_eq_iterate, Function.iterate_succ_apply', ← crcShifts_eq_iterate, ih, crcShift_xor,
      List.range_succ, List.foldl_append, BitVec.shiftRight_add]
    simp

/-- Shifts that drop zeros only are plain shifts. -/
theorem crcShifts_of_low_zero {n : Nat} {c : Word16} (h : ∀ k < n, c.getLsbD k = false) :
    crcShifts n c = c >>> n := by
  induction n generalizing c with
  | zero => simp [crcShifts]
  | succ n ih =>
    have hnext : ∀ k < n, (c >>> 1).getLsbD k = false := fun k hk => by
      simpa [Nat.add_comm] using h (k + 1) (by omega)
    rw [crcShifts, crcShift_of_even (h 0 (by omega)), ih hnext, ← BitVec.shiftRight_add, Nat.add_comm]

/-! ### One byte -/

theorem crcUpdate_injective_left (b : Byte) : Function.Injective (crcUpdate · b) := fun _ _ h =>
  (BitVec.xor_left_inj _).1 (crcShifts_injective 8 h)

theorem crcUpdate_injective_right (c : Word16) : Function.Injective (crcUpdate c) := by
  intro b b' h
  have hwide : b.setWidth 16 = b'.setWidth 16 := (BitVec.xor_right_inj _).1 (crcShifts_injective 8 h)
  simpa using congrArg (BitVec.setWidth 8) hwide

/-- The low byte of the register is cancelled by itself, and the high byte takes its place. -/
theorem crcUpdate_loByte (hi lo : Byte) : crcUpdate (word16 hi lo) lo = hi.setWidth 16 := by
  have hlow : ∀ k < 8, (word16 hi lo ^^^ lo.setWidth 16).getLsbD k = false := by
    intro k hk
    rw [BitVec.getLsbD_xor, word16_getLsbD, if_pos hk, BitVec.getLsbD_setWidth, decide_eq_true (by omega),
      Bool.true_and, Bool.xor_self]
  rw [crcUpdate, crcShifts_of_low_zero hlow]
  apply BitVec.eq_of_getLsbD_eq
  intro i hi
  simp [word16_getLsbD, hi]

theorem crcUpdate_self (b : Byte) : crcUpdate (b.setWidth 16) b = 0 := by
  rw [crcUpdate, BitVec.xor_self, crcShifts_of_low_zero] <;> simp

/-- R155: the bits of the byte meet the register one by one, and after eight shifts nothing of the byte stands above them. -/
theorem crcSerial_eq_crcUpdate (c : Word16) (b : Byte) : crcSerial c b = crcUpdate c b := by
  have hnone : (b.setWidth 16) >>> 8 = (0#16) := by
    ext i hi
    simp
  have hbits : ∀ k ∈ List.range 8, (b.setWidth 16).getLsbD k = b.getLsbD k := by
    intro k hk
    have hk8 : k < 8 := List.mem_range.1 hk
    rw [BitVec.getLsbD_setWidth, decide_eq_true (by omega), Bool.true_and]
  rw [crcUpdate, crcShifts_xor, hnone, BitVec.xor_zero, crcSerial, byteBits, List.foldl_map]
  exact List.foldl_ext _ _ _ fun c k hk => by rw [hbits k hk]

/-! ### A sequence of bytes -/

theorem crcUpdates_append (c : Word16) (as bs : List Byte) :
    crcUpdates c (as ++ bs) = crcUpdates (crcUpdates c as) bs := List.foldl_append

theorem crcSum_append (as bs : List Byte) : crcSum (as ++ bs) = crcUpdates (crcSum as) bs :=
  crcUpdates_append _ as bs

theorem crcUpdates_injective (bs : List Byte) : Function.Injective (crcUpdates · bs) := by
  induction bs with
  | nil => exact Function.injective_id
  | cons b bs ih => exact ih.comp (crcUpdate_injective_left b)

/-- R157 at any register value: the two bytes that bring the register to 0 are its own. -/
theorem crcUpdates_crcTrailer_eq_zero_iff (c d : Word16) : crcUpdates c (crcTrailer d) = 0 ↔ c = d := by
  have hself : crcUpdates d (crcTrailer d) = 0 := by
    calc crcUpdates d (crcTrailer d)
        = crcUpdate (crcUpdate (word16 (hiByte d) (loByte d)) (loByte d)) (hiByte d) := by
          rw [word16_hi_lo]; rfl
      _ = 0 := by rw [crcUpdate_loByte, crcUpdate_self]
  rw [← hself]
  exact (crcUpdates_injective _).eq_iff

/-! ### The parser's check (41_framer.md R174) -/

/-- A span of the length that its first byte gives is decided by its two last bytes. -/
theorem parseSpan_crcTrailer {n : Byte} {p : List Byte} (hp : p.length = n.toNat) (c : Word16) :
    parseSpan (n :: (p ++ crcTrailer c)) = if crcSum (n :: p) = c then some p else none := by
  simp [parseSpan, crcTrailer, ← hp]

/-- Two bytes at the end of a sequence are the checksum bytes of some word. -/
theorem exists_eq_append_crcTrailer {m : Nat} {bs : List Byte} (h : bs.length = m + 2) :
    ∃ p c, bs = p ++ crcTrailer c ∧ p.length = m := by
  obtain ⟨lo, hi, hlast⟩ := List.length_eq_two.1 (show (bs.drop m).length = 2 by simp [h])
  refine ⟨bs.take m, word16 hi lo, ?_, by simp [h]⟩
  rw [crcTrailer, loByte_word16, hiByte_word16, ← hlast, List.take_append_drop]

theorem lenByte_toNat {p : List Byte} (h : p.length ≤ 255) : (lenByte p).toNat = p.length := by
  simp [lenByte]
  omega

/-! ### The statements about the sum -/

/-- Settles O2. Feeding bits 0 to 7 of the byte is the model's bit-serial form. -/
theorem crcBitSerial : Obligations.CrcBitSerial := by
  unfold Obligations.CrcBitSerial
  intro c b
  rw [← crcSerial_eq_crcUpdate, crcSerial, byteBits, List.foldl_map]
  rfl

/-- Settles O3. Both halves are `crcUpdates_crcTrailer_eq_zero_iff`: the first at the sequence's own checksum, the second
at the checksum that the span carries. -/
theorem crcResidue : Obligations.CrcResidue := by
  unfold Obligations.CrcResidue
  constructor
  · intro m
    rw [crcSum_append]
    exact (crcUpdates_crcTrailer_eq_zero_iff _ _).2 rfl
  · intro n rest h
    obtain ⟨p, c, rfl, hp⟩ := exists_eq_append_crcTrailer h
    rw [parseSpan_crcTrailer hp, ← List.cons_append, crcSum_append, crcUpdates_crcTrailer_eq_zero_iff]
    simp

/-- Settles O4. A flipped bit of the trailer is another word than the checksum; a flipped bit of a body byte changes the
register after that byte, and the bytes behind it keep the difference. -/
theorem crcSingleBit : Obligations.CrcSingleBit := by
  unfold Obligations.CrcSingleBit
  refine ⟨fun b _ _ h => crcUpdate_injective_left b h, fun c _ _ h => crcUpdate_injective_right c h, ?_, ?_⟩
  · intro p k hp hk
    rw [frameBody, List.cons_append, parseSpan_crcTrailer (lenByte_toNat hp).symm]
    exact if_neg (xor_bit_ne_self _ hk).symm
  · intro pre post b k hk h
    rw [crcSum_append, crcSum_append] at h
    exact xor_bit_ne_self b hk (crcUpdate_injective_right _ (crcUpdates_injective post h))

/-! ### The four operations (R151 to R154) -/

theorem crcUpdate_eq_iterate (c : Word16) (b : Byte) : crcUpdate c b = crcShift^[8] (c ^^^ b.setWidth 16) :=
  crcShifts_eq_iterate 8 _

theorem exec_crcInit (s : State) : exec .crcInit s = .next ((s.setCrc crcInitial).answered (.ok .none)) := rfl

theorem exec_crcUpdate (b : Byte) (s : State) :
    exec (.crcUpdate b) s = .next ((s.setCrc (crcUpdate s.crc b)).answered (.ok .none)) := rfl

theorem exec_crcRead (s : State) : exec .crcRead s = .next (s.answered (.ok (.u16 s.crc))) := rfl

theorem exec_crcSum (bs : List Byte) (s : State) :
    exec (.crcSum bs) s = .next (s.answered (.ok (.u16 (crcSum bs)))) := rfl

theorem decodeHost_crcSum {bs : List Byte} (h : bs.length < 65536) :
    decodeHost (0x04 :: 0x00 :: bytesOperand bs) = .ok (.crcSum bs) := by
  have hbytes : takeBytes (bytesOperand bs) = .ok (bs, []) := by
    simpa using takeBytes_bytesOperand bs [] h
  simp [decodeHost, decodePrefix, decodeOperands, zeroInst, field, hbytes]

/-- Settles O1. The eight shift steps written out are those of `crcUpdate_eq_iterate`; the words without a counted operand
decode by running the decoder. -/
theorem crcOperations : Obligations.CrcOperations := by
  unfold Obligations.CrcOperations
  intro shift update s b bs
  have hupdate : update = crcUpdate := by
    funext c b
    exact (crcUpdate_eq_iterate c b).symm
  rw [hupdate]
  exact ⟨exec_crcInit s, exec_crcUpdate b s, exec_crcRead s, exec_crcSum bs s, rfl, rfl, rfl, decodeHost_crcSum⟩

end Machine

end Sys2Proof
end

section
/-! PROOFS. The framer and its scanner (41_framer.md). -/

namespace Sys2Proof

/-- A word whose operand field is one `BYTES` decodes to its operation (30_encoding.md R130, R131). -/
theorem decodeHost_bytes {code inst : Byte} {op : List Byte → Instr}
    (hop : ∀ bs, decodeOperands code inst bs = field op (takeBytes bs))
    {bs : List Byte} (h : bs.length < 65536) :
    decodeHost (code :: inst :: Machine.bytesOperand bs) = .ok (op bs) := by
  have hbytes : takeBytes (Machine.bytesOperand bs) = .ok (bs, []) := by
    simpa using takeBytes_bytesOperand bs [] h
  simp only [decodeHost, decodePrefix, hop, hbytes, field]

namespace Machine

/-! ### Frames and spans (R171, R173, R174) -/

theorem frameSpan_eq (p : List Byte) : frameSpan p = lenByte p :: (p ++ crcTrailer (crcSum (frameBody p))) := rfl

@[simp] theorem length_buildFrame (p : List Byte) : (buildFrame p).length = p.length + 4 := by
  simp [buildFrame, frameSpan_eq, crcTrailer]

theorem payloadFits_iff (p : List Byte) : payloadFits p = true ↔ p.length ≤ 255 := decide_eq_true_iff

/-- A span that is shorter or longer than its first byte says is rejected. -/
theorem parseSpan_of_length_ne {bs : List Byte} (h : ∀ n rest, bs = n :: rest → rest.length ≠ n.toNat + 2) :
    parseSpan bs = none := by
  cases bs with
  | nil => rfl
  | cons n rest => exact if_neg (h n rest rfl)

/-- The parser inverts the builder. -/
theorem parseSpan_frameSpan {p : List Byte} (hp : p.length ≤ 255) : parseSpan (frameSpan p) = some p := by
  rw [frameSpan_eq, parseSpan_crcTrailer (lenByte_toNat hp).symm]
  exact if_pos rfl

/-! ### The operations -/

theorem exec_frmBuild_ok {p : List Byte} (hp : p.length ≤ 255) (s : State) :
    exec (.frmBuild p) s = .next (s.answered (.ok (.bytes (buildFrame p)))) := by
  change execFrmBuild p s = _
  rw [execFrmBuild, if_pos ((payloadFits_iff p).2 hp), State.answer_accept s _ _ rfl]

theorem exec_frmBuild_size {p : List Byte} (hp : 255 < p.length) (s : State) :
    exec (.frmBuild p) s = .next (s.answered (.error (.size 0 p.length))) := by
  change execFrmBuild p s = _
  rw [execFrmBuild, if_neg (by rw [payloadFits_iff]; omega), State.raise_accept s _ _ rfl]

theorem exec_frmParse (bs : List Byte) (s : State) :
    exec (.frmParse bs) s = .next (s.answered (.ok (.opt (parseSpan bs)))) := rfl

/-- Settles O6. The frame written out byte by byte is `buildFrame`. -/
theorem frameBuild : Obligations.FrameBuild := by
  unfold Obligations.FrameBuild
  intro s p
  exact ⟨fun hp => exec_frmBuild_ok hp s, fun hp => exec_frmBuild_size hp s, decodeHost_bytes fun _ => rfl⟩

/-- Settles O7. The two bytes behind the payload are the trailer of the word `hi ++ lo`, with which the parser compares. -/
theorem frameParse : Obligations.FrameParse := by
  unfold Obligations.FrameParse
  intro s
  refine ⟨fun n p lo hi hp => ?_, fun bs h => ?_, fun bs => decodeHost_bytes fun _ => rfl⟩
  · have htrailer : [lo, hi] = crcTrailer (word16 hi lo) := by
      rw [crcTrailer, loByte_word16, hiByte_word16]
    rw [exec_frmParse, htrailer, parseSpan_crcTrailer hp]
    rfl
  · rw [exec_frmParse, parseSpan_of_length_ne h]

/-- Settles O8. Without its marker a built frame is a span, and the parser inverts the builder. -/
theorem frameRoundTrip : Obligations.FrameRoundTrip := by
  unfold Obligations.FrameRoundTrip
  intro s p hp
  refine ⟨buildFrame p, length_buildFrame p, exec_frmBuild_ok hp s, fun s' => ?_⟩
  rw [exec_frmParse, buildFrame, List.drop_one, List.tail_cons, parseSpan_frameSpan hp]

/-! ### What `SCAN` does with each shape of a buffer (R179) -/

@[simp] theorem scan_nil : scan [] = ⟨[], []⟩ := rfl

theorem scan_marker : scan [sof] = ⟨[sof], []⟩ := rfl

theorem scan_cons_of_ne {b : Byte} (hb : b ≠ sof) (bs : List Byte) : scan (b :: bs) = scan bs := by
  rw [scan_eq, scan_eq, List.dropWhile_cons_of_pos (by simpa using hb)]

/-- A frame that is not complete waits. -/
theorem scan_partial {n : Byte} {rest : List Byte} (h : rest.length < n.toNat + 2) :
    scan (sof :: n :: rest) = ⟨sof :: n :: rest, []⟩ := by
  rw [scan_eq, List.dropWhile_cons_of_neg (by simp)]
  exact if_pos h

/-- A complete span is parsed and consumed, delivered or not, and the scan goes on behind it. -/
theorem scan_span {n : Byte} {t : List Byte} (ht : t.length = n.toNat + 2) (rest : List Byte) :
    scan (sof :: n :: (t ++ rest)) = ⟨(scan rest).buf, (parseSpan (n :: t)).toList ++ (scan rest).out⟩ := by
  rw [scan_eq, List.dropWhile_cons_of_neg (by simp)]
  simp only [← ht]
  rw [if_neg (by simp), List.take_left, List.drop_left]
  cases parseSpan (n :: t) <;> rfl

/-- The shapes of a buffer, in the order in which `SCAN` tells them apart. -/
theorem scan_induction {P : List Byte → Prop} (nil : P [])
    (garbage : ∀ b bs, b ≠ sof → P bs → P (b :: bs))
    (marker : P [sof])
    (short : ∀ n rest, rest.length < n.toNat + 2 → P (sof :: n :: rest))
    (span : ∀ n t rest, t.length = n.toNat + 2 → P rest → P (sof :: n :: (t ++ rest))) :
    ∀ buf, P buf
  | [] => nil
  | b :: bs => by
    by_cases hb : b = sof
    · subst hb
      match bs with
      | [] => exact marker
      | n :: rest =>
        by_cases h : rest.length < n.toNat + 2
        · exact short n rest h
        · rw [← List.take_append_drop (n.toNat + 2) rest]
          exact span n _ _ (by simp; omega) (scan_induction nil garbage marker short span _)
    · exact garbage b bs hb (scan_induction nil garbage marker short span bs)
termination_by buf => buf.length
decreasing_by
  all_goals
    simp only [List.length_cons, List.length_drop]
    omega

/-! ### A stream taken piece by piece (R183) -/

/-- A scan of the first piece, then one of what it kept with the second piece, do what one scan of both does. -/
theorem scan_append (a b : List Byte) :
    scan (a ++ b) = ⟨(scan ((scan a).buf ++ b)).buf, (scan a).out ++ (scan ((scan a).buf ++ b)).out⟩ := by
  induction a using scan_induction with
  | nil => simp
  | garbage x a hx ih => rw [List.cons_append, scan_cons_of_ne hx, scan_cons_of_ne hx, ih]
  | marker => simp only [scan_marker, List.nil_append]
  | short n rest h => simp only [scan_partial h, List.nil_append]
  | span n t rest ht ih =>
    simp only [List.cons_append, List.append_assoc, scan_span ht, ih]

/-- What a scan keeps is kept as it is by the next one. -/
theorem scan_scan_buf (a : List Byte) : scan (scan a).buf = ⟨(scan a).buf, []⟩ := by
  have h := scan_append a []
  simp only [List.append_nil] at h
  have hbuf : (scan (scan a).buf).buf = (scan a).buf := (congrArg Scan.buf h).symm
  have hout : (scan (scan a).buf).out = [] := List.self_eq_append_right.1 (congrArg Scan.out h)
  exact congr (congrArg Scan.mk hbuf) hout

/-- The chunks leave what one scan of the whole stream leaves. -/
theorem scanChunks_eq_scan {buf : List Byte} (h : scan buf = ⟨buf, []⟩) (chunks : List (List Byte)) :
    scanChunks buf chunks = scan (buf ++ chunks.flatten) := by
  induction chunks generalizing buf with
  | nil => simp [scanChunks, h]
  | cons c cs ih =>
    rw [scanChunks, ih (scan_scan_buf (buf ++ c)), List.flatten_cons, ← List.append_assoc, ← scan_append]

/-- Settles O10. Both forms of the scanner take a stream piece by piece. -/
theorem chunkingIrrelevant : Obligations.ChunkingIrrelevant := by
  unfold Obligations.ChunkingIrrelevant
  constructor
  · intro cs cs' h
    rw [scanChunks_eq_scan scan_nil, scanChunks_eq_scan scan_nil, h]
  · intro u a b
    simp only [Uart.receive, Uart.setScanRegs, Uart.scanRegs, ← List.append_assoc, scan_append (u.rxBuf ++ a) b,
      scanBytes_append]

/-! ### Garbage, a frame, a piece of the next (R185) -/

/-- Bytes in front of the first marker are dropped. -/
theorem scan_append_of_no_marker {g : List Byte} (hg : sof ∉ g) (bs : List Byte) : scan (g ++ bs) = scan bs := by
  induction g with
  | nil => rfl
  | cons b g ih =>
    rw [List.cons_append, scan_cons_of_ne (List.ne_of_not_mem_cons hg).symm, ih (List.not_mem_of_not_mem_cons hg)]

/-- A built frame at the front is delivered. -/
theorem scan_buildFrame_append {p : List Byte} (hp : p.length ≤ 255) (bs : List Byte) :
    scan (buildFrame p ++ bs) = ⟨(scan bs).buf, p :: (scan bs).out⟩ := by
  have hspan : (p ++ crcTrailer (crcSum (frameBody p))).length = (lenByte p).toNat + 2 := by
    simp [crcTrailer, lenByte_toNat hp]
  rw [buildFrame, frameSpan_eq, List.cons_append, List.cons_append, scan_span hspan, ← frameSpan_eq,
    parseSpan_frameSpan hp]
  rfl

/-- A piece cut off the front of a built frame is kept. -/
theorem scan_of_append_eq_buildFrame {p q rest : List Byte} (hp : p.length ≤ 255) (hrest : rest ≠ [])
    (h : q ++ rest = buildFrame p) : scan q = ⟨q, []⟩ := by
  have hlen : q.length < p.length + 4 := by
    have := List.length_pos_iff.2 hrest
    rw [← length_buildFrame, ← h, List.length_append]
    omega
  rw [buildFrame, frameSpan_eq] at h
  match q with
  | [] => rfl
  | [m] =>
    obtain ⟨rfl, -⟩ := List.cons.inj h
    exact scan_marker
  | m :: n :: q =>
    obtain ⟨hm, hrest'⟩ := List.cons.inj h
    obtain ⟨hn, -⟩ := List.cons.inj hrest'
    subst hm hn
    refine scan_partial ?_
    rw [lenByte_toNat hp]
    simpa using hlen

/-- Settles O11. The garbage is dropped, the frame in front is delivered, and the piece behind it is kept until it is a
built frame itself. -/
theorem garbageFramePartial : Obligations.GarbageFramePartial := by
  unfold Obligations.GarbageFramePartial
  constructor
  · intro g p p' q rest hg hp hp' hrest hq
    constructor
    · rw [List.append_assoc, scan_append_of_no_marker hg, scan_buildFrame_append hp,
        scan_of_append_eq_buildFrame hp' hrest hq]
    · rw [hq, ← List.append_nil (buildFrame p'), scan_buildFrame_append hp', scan_nil]
  · intro g hg
    rw [← List.append_nil g, scan_append_of_no_marker hg, scan_nil]

/-! ### The two forms of the scanner, one byte at a time (R182) -/

theorem crcSum_append_byte (bs : List Byte) (b : Byte) : crcSum (bs ++ [b]) = crcUpdate (crcSum bs) b :=
  crcSum_append bs [b]

/-- A buffer that corresponds to registers is one that a scan keeps as it is. -/
theorem ScanAgrees.scan_eq_self {buf : List Byte} {r : ScanRegs} (h : ScanAgrees buf r) : scan buf = ⟨buf, []⟩ := by
  obtain ⟨rfl, -⟩ | ⟨rfl, -⟩ | ⟨n, q, rfl, hq, -⟩ | ⟨n, q, rfl, hq, -⟩ | ⟨n, q, lo, rfl, hq, -⟩ := h
  · rfl
  · rfl
  · exact scan_partial (by omega)
  · exact scan_partial (by omega)
  · exact scan_partial (by simp; omega)

/-- On the byte `b` the two forms deliver the same, and they correspond again after it. -/
def ScanByteAgrees (buf : List Byte) (r : ScanRegs) (b : Byte) : Prop :=
  (scan (buf ++ [b])).out = (scanByte r b).2.toList ∧ ScanAgrees (scan (buf ++ [b])).buf (scanByte r b).1

/-- While the new byte does not complete the frame, the buffer form only keeps it. -/
theorem scanByteAgrees_of_kept {buf : List Byte} {r : ScanRegs} {b : Byte} (hkept : scan (buf ++ [b]) = ⟨buf ++ [b], []⟩)
    (hnone : (scanByte r b).2 = none) (h : ScanAgrees (buf ++ [b]) (scanByte r b).1) : ScanByteAgrees buf r b := by
  rw [ScanByteAgrees, hkept, hnone]
  exact ⟨rfl, h⟩

section
variable {r : ScanRegs} (b : Byte)

theorem scanByteAgrees_hunt (hs : r.seq = .hunt) : ScanByteAgrees [] r b := by
  simp only [ScanByteAgrees, scanByte, hs, List.nil_append]
  by_cases hb : b = sof
  · subst hb
    exact ⟨rfl, .inr (.inl ⟨rfl, rfl⟩)⟩
  · rw [scan_cons_of_ne hb, if_neg hb]
    exact ⟨rfl, .inl ⟨rfl, hs⟩⟩

theorem scanByteAgrees_len (hs : r.seq = .len) : ScanByteAgrees [sof] r b := by
  refine scanByteAgrees_of_kept (scan_partial (by simp)) (by simp [scanByte, hs]) ?_
  simp only [scanByte, hs]
  by_cases hb : b = 0
  · subst hb
    exact .inr (.inr (.inr (.inl ⟨0, [], rfl, rfl, rfl, rfl, rfl⟩)))
  · have hpos : 0 < b.toNat := Nat.pos_of_ne_zero fun h => hb (BitVec.eq_of_toNat_eq h)
    exact .inr (.inr (.inl ⟨b, [], rfl, hpos, if_neg hb, rfl, rfl, rfl, rfl⟩))

theorem scanByteAgrees_data {q : List Byte} (hq : q.length < r.n.toNat) (hs : r.seq = .data) (hpay : r.pay = q)
    (hcnt : r.cnt.toNat = q.length) (hcrc : r.crc = crcSum (r.n :: q)) : ScanByteAgrees (sof :: r.n :: q) r b := by
  have hn : r.n.toNat < 256 := r.n.isLt
  have hcnt' : (r.cnt + 1).toNat = (q ++ [b]).length := by
    simp [BitVec.toNat_add, hcnt]
    omega
  have hfull : r.cnt + 1 = r.n.setWidth 9 ↔ (q ++ [b]).length = r.n.toNat := by
    rw [← BitVec.toNat_inj, hcnt', BitVec.toNat_setWidth, Nat.mod_eq_of_lt (by omega)]
  have hcrc' : crcUpdate r.crc b = crcSum (r.n :: (q ++ [b])) := by
    rw [hcrc, ← crcSum_append_byte, List.cons_append]
  refine scanByteAgrees_of_kept (scan_partial (by simp; omega)) (by simp [scanByte, hs]) ?_
  simp only [scanByte, hs, hpay]
  by_cases h : (q ++ [b]).length = r.n.toNat
  · exact .inr (.inr (.inr (.inl ⟨r.n, q ++ [b], rfl, h, if_pos (hfull.2 h), rfl, hcrc'⟩)))
  · have hlt : (q ++ [b]).length < r.n.toNat := by
      rw [List.length_append, List.length_singleton] at h ⊢
      omega
    exact .inr (.inr (.inl ⟨r.n, q ++ [b], rfl, hlt, if_neg (h ∘ hfull.1), rfl, rfl, hcnt', hcrc'⟩))

section
variable {n : Byte} {q : List Byte} (hq : q.length = n.toNat) (hpay : r.pay = q) (hcrc : r.crc = crcSum (n :: q))
include hq hpay hcrc

theorem scanByteAgrees_crcLo (hs : r.seq = .crcLo) : ScanByteAgrees (sof :: n :: q) r b := by
  refine scanByteAgrees_of_kept (scan_partial (by simp; omega)) (by simp [scanByte, hs]) ?_
  simp only [scanByte, hs]
  exact .inr (.inr (.inr (.inr ⟨n, q, b, rfl, hq, rfl, hpay, hcrc, rfl⟩)))

/-- The last byte: the span is whole, and the parser of the buffer form makes the comparison of the byte-serial form. -/
theorem scanByteAgrees_crcHi (hs : r.seq = .crcHi) : ScanByteAgrees (sof :: n :: (q ++ [r.lo])) r b := by
  have hbuf : sof :: n :: (q ++ [r.lo]) ++ [b] = sof :: n :: (q ++ crcTrailer (word16 b r.lo) ++ []) := by
    simp [crcTrailer]
  have hlen : (q ++ crcTrailer (word16 b r.lo)).length = n.toNat + 2 := by
    simp [crcTrailer, hq]
  rw [ScanByteAgrees, hbuf, scan_span hlen, parseSpan_crcTrailer hq]
  simp only [scanByte, hs, hpay, hcrc, scan_nil, List.append_nil, true_and]
  exact .inl ⟨rfl, rfl⟩

end

/-- One byte, whichever row of the table of R181 the registers stand in. -/
theorem ScanAgrees.scanByteAgrees {buf : List Byte} (h : ScanAgrees buf r) : ScanByteAgrees buf r b := by
  obtain ⟨rfl, hs⟩ | ⟨rfl, hs⟩ | ⟨_, q, rfl, hq, hs, rfl, hpay, hcnt, hcrc⟩ | ⟨n, q, rfl, hq, hs, hpay, hcrc⟩
    | ⟨n, q, _, rfl, hq, hs, hpay, hcrc, rfl⟩ := h
  · exact scanByteAgrees_hunt b hs
  · exact scanByteAgrees_len b hs
  · exact scanByteAgrees_data b hq hs hpay hcnt hcrc
  · exact scanByteAgrees_crcLo b hq hpay hcrc hs
  · exact scanByteAgrees_crcHi b hq hpay hcrc hs

end

/-- A whole stream: the buffer form on all of it at once, the byte-serial form byte by byte. -/
theorem ScanAgrees.scan_append_agrees {buf : List Byte} {r : ScanRegs} (h : ScanAgrees buf r) (bs : List Byte) :
    (scan (buf ++ bs)).out = (scanBytes r bs).2 ∧ ScanAgrees (scan (buf ++ bs)).buf (scanBytes r bs).1 := by
  induction bs generalizing buf r with
  | nil =>
    rw [List.append_nil, h.scan_eq_self]
    exact ⟨rfl, h⟩
  | cons b bs ih =>
    obtain ⟨hout, hagrees⟩ := h.scanByteAgrees b
    obtain ⟨hout', hagrees'⟩ := ih hagrees
    rw [List.append_cons, scan_append]
    exact ⟨congr (congrArg _ hout) hout', hagrees'⟩

/-- Settles O9. The chunks do what one scan of the whole stream does, and that agrees with the byte-serial form byte by
byte. -/
theorem scannerFormsAgree : Obligations.ScannerFormsAgree := by
  unfold Obligations.ScannerFormsAgree
  intro buf r h chunks
  rw [scanChunks_eq_scan h.scan_eq_self]
  exact h.scan_append_agrees chunks.flatten

end Machine

end Sys2Proof
end

section
/-! PROOFS. The framed UART controller (42_uart_framed.md). -/

namespace Sys2Proof.Machine

/-! ### Construction (R190) -/

theorem checkFramedBaud_zero : checkFramedBaud 0 = .error .baud := rfl

/-- Any rate but 0 is positive, and R190 sets no upper bound. -/
theorem checkFramedBaud_ok {baud : Word32} (h : baud ≠ 0) : checkFramedBaud baud = .ok baud.toNat :=
  if_neg (by bv_omega)

section
variable {s : State} {inst : Byte} {u : Uart} (hu : s.uarts[inst.toNat]? = some u)
include hu

/-- The lifecycle is tested before the rate. -/
theorem exec_ufConstruct_state (hlc : u.lc ≠ .unconstructed) (baud : Word32) :
    exec (.ufConstruct inst baud) s = .next (s.answered (.error (.state u.lc.asLc))) := by
  change execUfConstruct inst baud s = _
  rw [execUfConstruct, onUart_some inst s u _ hu, if_neg hlc, State.raise_accept s _ _ rfl]

theorem exec_ufConstruct_config {baud : Word32} {f : ConfigField} (hlc : u.lc = .unconstructed)
    (hc : checkFramedBaud baud = .error f) :
    exec (.ufConstruct inst baud) s = .next (s.answered (.error (.config f))) := by
  change execUfConstruct inst baud s = _
  rw [execUfConstruct, onUart_some inst s u _ hu, if_pos hlc, hc]
  exact congrArg Host.Outcome.next (State.raise_accept s _ _ rfl)

/-- A first construction whose rate passes the check is answered OK in the state it reaches. -/
theorem exec_ufConstruct_ok {baud : Word32} {b : Nat} (hlc : u.lc = .unconstructed)
    (hc : checkFramedBaud baud = .ok b) :
    exec (.ufConstruct inst baud) s
      = .next ((s.setUart inst.toNat (u.constructFramed b)).answered (.ok .none)) := by
  change execUfConstruct inst baud s = _
  rw [execUfConstruct, onUart_some inst s u _ hu, if_pos hlc, hc]
  rfl

end

/-- The word of `UF.CONSTRUCT`: its operand field is the rate as a `U32`, high byte first (30_encoding.md R130, R131). -/
theorem decodeHost_ufConstruct (inst a b c d : Byte) :
    decodeHost [0x20, inst, a, b, c, d] = .ok (.ufConstruct inst (a ++ b ++ c ++ d)) := rfl

/-- Settles O19. One clause per outcome of the two checks; the registers the statement lists are those
`Uart.constructFramed` writes. -/
theorem ufConstruct : Obligations.UfConstruct := by
  unfold Obligations.UfConstruct
  intro s inst baud u hu
  refine ⟨fun hlc => exec_ufConstruct_state hu hlc baud, fun hlc hzero => ?_, fun hlc hpos => ?_,
    decodeHost_ufConstruct inst⟩
  · subst hzero
    exact exec_ufConstruct_config hu hlc checkFramedBaud_zero
  · exact exec_ufConstruct_ok hu hlc (checkFramedBaud_ok hpos)

end Sys2Proof.Machine
end

section
/-! PROOFS. Construction of the raw UART controller (43_uart_raw.md R220). -/

namespace Sys2Proof.Machine

/-! ### The checks, in their order -/

/-- The test each of the three number checks makes, as the range it leaves out. -/
theorem outside_iff {lo hi n : Nat} : (n < lo || hi < n) = true ↔ ¬ (lo ≤ n ∧ n ≤ hi) := by
  rw [Bool.or_eq_true, decide_eq_true_iff, decide_eq_true_iff]
  omega

theorem parityOf_of_mem {p : Byte} {q : Parity}
    (h : (p, q) ∈ [((0x4E : Byte), Parity.n), (0x45, .e), (0x4F, .o), (0x4D, .m), (0x53, .s)]) :
    parityOf p = some q := by
  simp only [List.mem_cons, List.not_mem_nil, or_false, Prod.mk.injEq] at h
  obtain ⟨rfl, rfl⟩ | ⟨rfl, rfl⟩ | ⟨rfl, rfl⟩ | ⟨rfl, rfl⟩ | ⟨rfl, rfl⟩ := h <;> rfl

theorem parityOf_of_not_mem {p : Byte} (h : p ∉ ([0x4E, 0x45, 0x4F, 0x4D, 0x53] : List Byte)) : parityOf p = none := by
  simp only [List.mem_cons, List.not_mem_nil, or_false, not_or] at h
  obtain ⟨hn, he, ho, hm, hs⟩ := h
  rw [parityOf, if_neg hn, if_neg he, if_neg ho, if_neg hm, if_neg hs]

section
variable {baud : Word32} {d st p : Byte}

theorem checkRawConfig_baud (hbaud : ¬ (1200 ≤ baud.toNat ∧ baud.toNat ≤ 2000000)) :
    checkRawConfig baud d st p = .error .baud :=
  if_pos (outside_iff.2 hbaud)

variable (hbaud : 1200 ≤ baud.toNat ∧ baud.toNat ≤ 2000000)
include hbaud

theorem checkRawConfig_databits (hd : ¬ (5 ≤ d.toNat ∧ d.toNat ≤ 9)) :
    checkRawConfig baud d st p = .error .databits := by
  rw [checkRawConfig, if_neg (outside_iff.not_left.2 hbaud), if_pos (outside_iff.2 hd)]

variable (hd : 5 ≤ d.toNat ∧ d.toNat ≤ 9)
include hd

theorem checkRawConfig_stopbits (hst : ¬ (1 ≤ st.toNat ∧ st.toNat ≤ 2)) :
    checkRawConfig baud d st p = .error .stopbits := by
  rw [checkRawConfig, if_neg (outside_iff.not_left.2 hbaud), if_neg (outside_iff.not_left.2 hd),
    if_pos (outside_iff.2 hst)]

theorem checkRawConfig_parity (hst : 1 ≤ st.toNat ∧ st.toNat ≤ 2) (hp : parityOf p = none) :
    checkRawConfig baud d st p = .error .parity := by
  rw [checkRawConfig, if_neg (outside_iff.not_left.2 hbaud), if_neg (outside_iff.not_left.2 hd),
    if_neg (outside_iff.not_left.2 hst), hp]

end

/-! ### The operation -/

section
variable {s : State} {inst : Byte} {u : Uart} (hu : s.uarts[inst.toNat]? = some u)
include hu

/-- The lifecycle is tested before the operands. -/
theorem exec_urConstruct_state (hlc : u.lc ≠ .unconstructed) (baud : Word32) (d st p : Byte) :
    exec (.urConstruct inst baud d st p) s = .next (s.answered (.error (.state u.lc.asLc))) := by
  change execUrConstruct inst baud d st p s = _
  rw [execUrConstruct, onUart_some inst s u _ hu, if_neg hlc, State.raise_accept s _ _ rfl]

/-- A refused configuration is named and changes nothing; `exec_urConstruct_ok` is the other outcome. -/
theorem exec_urConstruct_config {baud : Word32} {d st p : Byte} {f : ConfigField} (hlc : u.lc = .unconstructed)
    (hc : checkRawConfig baud d st p = .error f) :
    exec (.urConstruct inst baud d st p) s = .next (s.answered (.error (.config f))) := by
  change execUrConstruct inst baud d st p s = _
  rw [execUrConstruct, onUart_some inst s u _ hu, if_pos hlc, hc]
  exact congrArg Host.Outcome.next (State.raise_accept s _ _ rfl)

end

/-- The word of `UR.CONSTRUCT`: the rate as a `U32`, high byte first, then a byte for each other operand
(30_encoding.md R130, R131). -/
theorem decodeHost_urConstruct (inst a b c e d st p : Byte) :
    decodeHost [0x30, inst, a, b, c, e, d, st, p] = .ok (.urConstruct inst (a ++ b ++ c ++ e) d st p) := rfl

/-- Settles O28. One clause per outcome of the lifecycle test and the four checks; the fourteen registers the statement
lists are those `Uart.constructRaw` writes. -/
theorem urConstruct : Obligations.UrConstruct := by
  unfold Obligations.UrConstruct
  intro s inst baud d st p u hu
  refine ⟨fun hlc => exec_urConstruct_state hu hlc baud d st p, fun hlc hbaud => ?baud,
    fun hlc hbaud hd => ?databits, fun hlc hbaud hd hst => ?stopbits, fun hlc hbaud hd hst hp => ?parity,
    fun a b c e => decodeHost_urConstruct inst a b c e d st p, fun q hlc hbaud hd hst hp => ?ok⟩
  case baud => exact exec_urConstruct_config hu hlc (checkRawConfig_baud hbaud)
  case databits => exact exec_urConstruct_config hu hlc (checkRawConfig_databits hbaud hd)
  case stopbits => exact exec_urConstruct_config hu hlc (checkRawConfig_stopbits hbaud hd hst)
  case parity => exact exec_urConstruct_config hu hlc (checkRawConfig_parity hbaud hd hst (parityOf_of_not_mem hp))
  case ok => exact exec_urConstruct_ok hu hlc (checkRawConfig_ok hbaud hd hst (parityOf_of_mem hp))

end Sys2Proof.Machine
end

section
/-! PROOFS. The singleton guard of the radio controller (44_radio_handshake.md R261). -/

namespace Sys2Proof.Machine

/-- S0 written out: the registers of R261, and SEQ_CONS at S1. -/
theorem Radio.takeGuard_eq (r : Radio) :
    r.takeGuard = { r with
      alloc := true, lc := .constructing, shutdown := false
      txq := [], rxList := [], txBatchR := [], irqPend := 0, seqCons := .s1Parse } := rfl

section
variable {s : State} (ch : Word16) (props : List PropRecord)

/-- A guard already taken is an error that names the lifecycle found. -/
theorem exec_rdConstruct_taken (h : s.radio.alloc = true) :
    exec (.rdConstruct ch props) s = .next (s.answered (.error (.state s.radio.lc))) := by
  change execRdConstruct ch props s = _
  rw [execRdConstruct, if_pos h, State.raise_accept s _ _ rfl]

/-- A free guard is taken as the operation is issued: counting the operation and writing the radio controller are
independent, so the two parts of the step may be read in either order. -/
theorem exec_rdConstruct_free (h : s.radio.alloc = false) :
    exec (.rdConstruct ch props) s = .next ((s.setRadio s.radio.takeGuard).issued (.rdConstruct ch props)) := by
  have hcomm : s.accept.setRadio s.radio.takeGuard = (s.setRadio s.radio.takeGuard).accept := rfl
  change execRdConstruct ch props s = _
  rw [execRdConstruct, if_neg (ne_true_of_eq_false h), hcomm,
    State.addOp_accept (s.setRadio s.radio.takeGuard) s.nextTicket _ rfl]

end

/-- Settles O39. The two values of ALLOC, tested before any operand is looked at. -/
theorem rdConstructGuard : Obligations.RdConstructGuard := by
  unfold Obligations.RdConstructGuard
  intro s ch props
  refine ⟨exec_rdConstruct_taken ch props, fun hfree => ?_⟩
  rw [exec_rdConstruct_free ch props hfree, Radio.takeGuard_eq]

end Sys2Proof.Machine
end

section
/-! PROOFS. The bytes of a response (30_encoding.md R130, R131; 60_exceptions.md R310, R311). -/

namespace Sys2Proof

/-! ### The bytes of a number that fits its field (20_memory.md R83) -/

/-- Each byte of a field is read off the number by a division. -/
theorem extractLsb'_ofNat_byte {w n : Nat} (h : n < 2 ^ w) (start : Nat) :
    (BitVec.ofNat w n).extractLsb' start 8 = BitVec.ofNat 8 (n / 2 ^ start) := by
  apply BitVec.eq_of_toNat_eq
  rw [BitVec.extractLsb'_toNat, BitVec.toNat_ofNat, BitVec.toNat_ofNat, Nat.mod_eq_of_lt h,
    Nat.shiftRight_eq_div_pow]

theorem countBytes_eq {n : Nat} (h : n < 65536) : countBytes n = [BitVec.ofNat 8 (n / 256), BitVec.ofNat 8 n] := by
  simp [countBytes, u16Bytes, hiByte, loByte, extractLsb'_ofNat_byte (w := 16) h]

theorem u32Bytes_ofNat {n : Nat} (h : n < 4294967296) :
    u32Bytes (BitVec.ofNat 32 n) =
      [BitVec.ofNat 8 (n / 16777216), BitVec.ofNat 8 (n / 65536), BitVec.ofNat 8 (n / 256), BitVec.ofNat 8 n] := by
  simp [u32Bytes, extractLsb'_ofNat_byte (w := 32) h]

namespace Machine

/-! ### The fields whose contents fit (R130) -/

theorem u16Field_eq_some {n : Nat} (h : n < 65536) :
    u16Field n = some [BitVec.ofNat 8 (n / 256), BitVec.ofNat 8 n] := by
  rw [u16Field, if_pos h, countBytes_eq h]

theorem u32Field_eq_some {n : Nat} (h : n < 4294967296) :
    u32Field n = some [BitVec.ofNat 8 (n / 16777216), BitVec.ofNat 8 (n / 65536), BitVec.ofNat 8 (n / 256),
      BitVec.ofNat 8 n] := by
  rw [u32Field, if_pos h, u32Bytes_ofNat h]

/-- `BYTES` in a result field has the bytes it has in an operand field. -/
theorem bytesField_eq_some {b : List Byte} (h : b.length < 65536) : bytesField b = some (bytesOperand b) := by
  rw [bytesField, u16Field_eq_some h]
  rfl

theorem itemsField_eq_some {l : List (List Byte)} (h : ∀ b ∈ l, b.length < 65536) :
    itemsField l = some (l.flatMap bytesOperand) := by
  induction l with
  | nil => rfl
  | cons b bs ih =>
    obtain ⟨hb, hbs⟩ := List.forall_mem_cons.1 h
    rw [itemsField, bytesField_eq_some hb, ih hbs, List.flatMap_cons]

/-! ### The responses that carry a number or a sequence -/

theorem responseBytes_size {i n : Nat} (hi : i < 65536) (hn : n < 4294967296) :
    responseBytes (.error (.size i n)) =
      some ([0x01, BitVec.ofNat 8 (i / 256), BitVec.ofNat 8 i]
        ++ [BitVec.ofNat 8 (n / 16777216), BitVec.ofNat 8 (n / 65536), BitVec.ofNat 8 (n / 256), BitVec.ofNat 8 n]) := by
  rw [responseBytes, errBytes, u16Field_eq_some hi, u32Field_eq_some hn]
  rfl

theorem responseBytes_properties {n : Nat} (h : n < 65536) :
    responseBytes (.error (.config (.properties n))) =
      some [0x02, 6, BitVec.ofNat 8 (n / 256), BitVec.ofNat 8 n] := by
  rw [responseBytes, errBytes, fieldBytes, u16Field_eq_some h]
  rfl

/-- The index is one byte, so more than the 31 properties would fit it. -/
theorem responseBytes_prop {i : Nat} (h : i < 256) :
    responseBytes (.error (.handshake (.prop i))) = some [0x03, 5, BitVec.ofNat 8 i] := by
  rw [responseBytes, errBytes, stepBytes, if_pos h]
  rfl

theorem responseBytes_bytes {b : List Byte} (h : b.length < 65536) :
    responseBytes (.ok (.bytes b)) = some (0x00 :: bytesOperand b) := by
  rw [responseBytes, resultBytes, bytesField_eq_some h]
  rfl

theorem responseBytes_opt_some {b : List Byte} (h : b.length < 65536) :
    responseBytes (.ok (.opt (some b))) = some (0x00 :: 0x01 :: bytesOperand b) := by
  rw [responseBytes, resultBytes, bytesField_eq_some h]
  rfl

theorem responseBytes_list {l : List (List Byte)} (hl : l.length < 65536) (h : ∀ b ∈ l, b.length < 65536) :
    responseBytes (.ok (.list l)) =
      some (0x00 :: BitVec.ofNat 8 (l.length / 256) :: BitVec.ofNat 8 l.length :: l.flatMap bytesOperand) := by
  rw [responseBytes, resultBytes, u16Field_eq_some hl, itemsField_eq_some h]
  rfl

/-- Settles O18. A response with a count or an index is one of the lemmas above, which use that the number fits its
field; the others have bytes that name no number, or only the bytes of their own word. -/
theorem errorResponseBytes : Obligations.ErrorResponseBytes := by
  unfold Obligations.ErrorResponseBytes
  refine ⟨fun i n => responseBytes_size, rfl, rfl, rfl, rfl, rfl, fun n => responseBytes_properties, rfl, rfl,
    fun i hi => responseBytes_prop (by omega), rfl, rfl, rfl, rfl, rfl, rfl, rfl, rfl, rfl, fun w => rfl,
    fun b => responseBytes_bytes, rfl, fun b => responseBytes_opt_some, fun l => responseBytes_list⟩

end Machine

end Sys2Proof
end

section
/-! PROOFS. The words of the host port and of the serial line, decoded and encoded (30_encoding.md R111, R128, R130, R131, R134). -/

namespace Sys2Proof

/-! ### Field parsers and their encoders (R130) -/

/-- The parser reads back what the encoder of the field writes, whatever follows it, and reads nothing else. -/
structure Codec {α : Type} (take : List Byte → Parse α) (enc : α → List Byte) (ok : α → Prop) : Prop where
  read : ∀ x, ok x → ∀ rest, take (enc x ++ rest) = .ok (x, rest)
  sound : ∀ bs x rest, take bs = .ok (x, rest) → ok x ∧ bs = enc x ++ rest

theorem u16Bytes_word16 (hi lo : Byte) : u16Bytes (word16 hi lo) = [hi, lo] := by
  simp [u16Bytes]

/-- The four bytes of a 32-bit value, put together again. -/
theorem append_u32Bytes (v : Word32) :
    v.extractLsb' 24 8 ++ v.extractLsb' 16 8 ++ v.extractLsb' 8 8 ++ v.extractLsb' 0 8 = v := by
  rw [BitVec.extractLsb'_append_extractLsb'_eq_extractLsb' (by rfl),
    BitVec.extractLsb'_append_extractLsb'_eq_extractLsb' (by rfl),
    BitVec.extractLsb'_append_extractLsb'_eq_extractLsb' (by rfl)]
  exact BitVec.extractLsb'_eq_self

theorem u32Bytes_append (a b c d : Byte) : u32Bytes (a ++ b ++ c ++ d) = [a, b, c, d] := by
  have h : ∀ start, ∀ x : Byte, (∀ i < 8, (a ++ b ++ c ++ d).getLsbD (start + i) = x.getLsbD i) →
      (a ++ b ++ c ++ d).extractLsb' start 8 = x := fun start x hx =>
    BitVec.eq_of_getLsbD_eq fun i hi => by rw [BitVec.getLsbD_extractLsb', hx i hi]; simp [hi]
  simp only [u32Bytes, List.cons.injEq, and_true]
  refine ⟨h _ _ fun i hi => ?_, h _ _ fun i hi => ?_, h _ _ fun i hi => ?_, h _ _ fun i hi => ?_⟩
  all_goals
    simp only [BitVec.getLsbD_append]
    grind

theorem takeExact_ok_iff {n : Nat} {bs p rest : List Byte} :
    takeExact n bs = .ok (p, rest) ↔ p.length = n ∧ p ++ rest = bs := by
  unfold takeExact
  constructor
  · intro h
    split at h
    · next hn =>
      simp only [Except.ok.injEq, Prod.mk.injEq] at h
      obtain ⟨rfl, rfl⟩ := h
      exact ⟨by simpa using hn, List.take_append_drop n bs⟩
    · contradiction
  · rintro ⟨rfl, rfl⟩
    simp

theorem takeByte_codec : Codec takeByte (fun b => [b]) (fun _ => True) where
  read _ _ _ := rfl
  sound bs x rest h := by
    cases bs with
    | nil => contradiction
    | cons b bs =>
      simp only [takeByte, Except.ok.injEq, Prod.mk.injEq] at h
      obtain ⟨rfl, rfl⟩ := h
      exact ⟨trivial, rfl⟩

theorem takeU16_codec : Codec takeU16 u16Bytes (fun _ => True) where
  read w _ rest := by simp [u16Bytes, takeU16]
  sound bs w rest h := by
    unfold takeU16 at h
    split at h
    · simp only [Except.ok.injEq, Prod.mk.injEq] at h
      obtain ⟨rfl, rfl⟩ := h
      exact ⟨trivial, by rw [u16Bytes_word16]; rfl⟩
    · contradiction

theorem takeU32_codec : Codec takeU32 u32Bytes (fun _ => True) where
  read v _ rest := by
    simp only [u32Bytes, List.cons_append, List.nil_append, takeU32, append_u32Bytes]
  sound bs v rest h := by
    unfold takeU32 at h
    split at h
    · simp only [Except.ok.injEq, Prod.mk.injEq] at h
      obtain ⟨rfl, rfl⟩ := h
      exact ⟨trivial, by rw [u32Bytes_append]; rfl⟩
    · contradiction

/-- The count of as many items as a `U16` says is that `U16`. -/
theorem countBytes_toNat (w : Word16) : countBytes w.toNat = u16Bytes w := by
  simp [countBytes]

theorem takeBytes_codec : Codec takeBytes encBytes (fun s => wfBytes s = true) where
  read s hs rest := by
    obtain ⟨hcount, hlen⟩ := takeU16_countBytes s.length (s ++ rest) (by simpa [wfBytes] using hs)
    simp only [takeBytes, encBytes, List.append_assoc, hcount, hlen, takeExact_ok_iff.2 ⟨rfl, rfl⟩]
  sound bs s rest h := by
    unfold takeBytes at h
    split at h
    · next w rest' hw =>
      obtain ⟨-, rfl⟩ := takeU16_codec.sound _ _ _ hw
      obtain ⟨hlen, rfl⟩ := takeExact_ok_iff.1 h
      refine ⟨by simp [wfBytes, hlen, w.isLt], ?_⟩
      rw [encBytes, hlen, countBytes_toNat, List.append_assoc]
    · contradiction

/-- A counted sequence of items, when the items have a codec. -/
theorem Codec.takeMany {α : Type} {item : List Byte → Parse α} {enc : α → List Byte} {ok : α → Prop}
    (hc : Codec item enc ok) (n : Nat) :
    Codec (takeMany item n) (fun xs => (xs.map enc).flatten) (fun xs => xs.length = n ∧ ∀ x ∈ xs, ok x) where
  read xs hxs rest := by
    obtain ⟨rfl, hok⟩ := hxs
    induction xs with
    | nil => rfl
    | cons x xs ih =>
      obtain ⟨hx, hxs⟩ := List.forall_mem_cons.1 hok
      simp only [List.map_cons, List.flatten_cons, List.append_assoc, List.length_cons, Sys2Proof.takeMany,
        hc.read x hx, ih hxs]
  sound bs xs rest h := by
    induction n generalizing bs xs with
    | zero =>
      simp only [Sys2Proof.takeMany, Except.ok.injEq, Prod.mk.injEq] at h
      obtain ⟨rfl, rfl⟩ := h
      simp
    | succ n ih =>
      simp only [Sys2Proof.takeMany] at h
      split at h
      · contradiction
      · next x bs' hx =>
        split at h
        · contradiction
        · next ys rest' hys =>
          simp only [Except.ok.injEq, Prod.mk.injEq] at h
          obtain ⟨rfl, rfl⟩ := h
          obtain ⟨hokx, rfl⟩ := hc.sound _ _ _ hx
          obtain ⟨⟨rfl, hok⟩, rfl⟩ := ih _ _ hys
          exact ⟨⟨rfl, List.forall_mem_cons.2 ⟨hokx, hok⟩⟩, by simp⟩

/-- `LIST`, when its items have a codec. -/
theorem Codec.takeList {α : Type} {item : List Byte → Parse α} {enc : α → List Byte} {ok : α → Prop}
    (hc : Codec item enc ok) :
    Codec (takeList item) (encList enc) (fun xs => xs.length < 65536 ∧ ∀ x ∈ xs, ok x) where
  read xs hxs rest := by
    obtain ⟨hlen, hok⟩ := hxs
    obtain ⟨hcount, hn⟩ := takeU16_countBytes xs.length ((xs.map enc).flatten ++ rest) hlen
    simp only [Sys2Proof.takeList, encList, List.append_assoc, hcount, hn, (hc.takeMany _).read xs ⟨rfl, hok⟩]
  sound bs xs rest h := by
    unfold Sys2Proof.takeList at h
    split at h
    · next w rest' hw =>
      obtain ⟨-, rfl⟩ := takeU16_codec.sound _ _ _ hw
      obtain ⟨⟨hlen, hok⟩, rfl⟩ := (hc.takeMany _).sound _ _ _ h
      refine ⟨⟨by rw [hlen]; exact w.isLt, hok⟩, ?_⟩
      rw [encList, hlen, countBytes_toNat, List.append_assoc]
    · contradiction

theorem takeRecord_codec : Codec takeRecord encRecord (fun p => wfRecord p = true) where
  read p hp rest := by
    simp only [encRecord, List.cons_append, takeRecord, takeBytes_codec.read p.values hp]
  sound bs p rest h := by
    unfold takeRecord at h
    split at h
    · split at h
      · next hvs =>
        simp only [Except.ok.injEq, Prod.mk.injEq] at h
        obtain ⟨rfl, rfl⟩ := h
        obtain ⟨hok, rfl⟩ := takeBytes_codec.sound _ _ _ hvs
        exact ⟨hok, rfl⟩
      · contradiction
    · contradiction

theorem takeOptU32_codec : Codec takeOptU32 encOptU32 (fun _ => True) where
  read o _ rest := by
    cases o with
    | none => rfl
    | some v => simp [encOptU32, takeOptU32, takeU32_codec.read v trivial]
  sound bs o rest h := by
    unfold takeOptU32 at h
    split at h
    · split at h
      · next htag =>
        simp only [Except.ok.injEq, Prod.mk.injEq] at h
        obtain ⟨rfl, rfl⟩ := h
        exact ⟨trivial, by rw [htag]; rfl⟩
      · split at h
        · next htag =>
          split at h
          · next hv =>
            simp only [Except.ok.injEq, Prod.mk.injEq] at h
            obtain ⟨rfl, rfl⟩ := h
            obtain ⟨-, rfl⟩ := takeU32_codec.sound _ _ _ hv
            exact ⟨trivial, by rw [htag]; rfl⟩
          · contradiction
        · contradiction
    · contradiction

/-! ### The operand field that CODE selects (R131) -/

/-- What a parser of operand fields answers is a well-formed host operation, and its word is what has been read. -/
def ReadsWord (c : Config) (code inst : Byte) (bs : List Byte) (p : Parse Instr) : Prop :=
  ∀ i rest, p = .ok (i, rest) → (i.wf = true ∧ i.isHost = true) ∧ encode c i ++ rest = code :: inst :: bs

section
variable {c : Config} {code inst k : Byte} {bs : List Byte}

theorem ReadsWord.error (e : DecodeError) : ReadsWord c code inst bs (.error e) := nofun

theorem ReadsWord.ite {p q : Parse Instr} (hp : code = k → ReadsWord c k inst bs p) (hq : ReadsWord c code inst bs q) :
    ReadsWord c code inst bs (if code = k then p else q) := by
  split
  · next h => exact h ▸ hp h
  · exact hq

theorem ReadsWord.zeroInst {p : Parse Instr} (hp : ReadsWord c k 0 bs p) :
    ReadsWord c k inst bs (Sys2Proof.zeroInst code inst p) := by
  unfold Sys2Proof.zeroInst
  split
  · next h => exact h ▸ hp
  · exact ReadsWord.error _

theorem ReadsWord.noField {i : Instr} (hi : i.wf = true ∧ i.isHost = true) (he : encode c i = [k, inst]) :
    ReadsWord c k inst bs (Sys2Proof.noField i bs) := by
  intro j rest h
  simp only [Sys2Proof.noField, Except.ok.injEq, Prod.mk.injEq] at h
  obtain ⟨rfl, rfl⟩ := h
  exact ⟨hi, by rw [he]; rfl⟩

theorem ReadsWord.field {α : Type} {take : List Byte → Parse α} {enc : α → List Byte} {ok : α → Prop}
    (hc : Codec take enc ok) {op : α → Instr} (hi : ∀ x, ok x → (op x).wf = true ∧ (op x).isHost = true)
    (he : ∀ x, encode c (op x) = k :: inst :: enc x) : ReadsWord c k inst bs (field op (take bs)) := by
  intro j rest h
  cases ht : take bs with
  | error e =>
    rw [ht] at h
    contradiction
  | ok x =>
    obtain ⟨x, rest'⟩ := x
    obtain ⟨hx, rfl⟩ := hc.sound _ _ _ ht
    rw [ht] at h
    simp only [Sys2Proof.field, Except.ok.injEq, Prod.mk.injEq] at h
    obtain ⟨rfl, rfl⟩ := h
    exact ⟨hi x hx, by rw [he]; rfl⟩

theorem takeUrConfig_reads : ReadsWord c 0x30 inst bs (takeUrConfig inst bs) := by
  intro i rest h
  unfold takeUrConfig at h
  split at h
  · next hb =>
    simp only [Except.ok.injEq, Prod.mk.injEq] at h
    obtain ⟨rfl, rfl⟩ := h
    obtain ⟨-, rfl⟩ := takeU32_codec.sound _ _ _ hb
    exact ⟨⟨rfl, rfl⟩, by simp [encode]⟩
  · contradiction
  · contradiction

theorem takeRdConfig_reads : ReadsWord c 0x40 0 bs (takeRdConfig bs) := by
  unfold takeRdConfig
  split
  · next ch rest hch =>
    obtain ⟨-, rfl⟩ := takeU16_codec.sound _ _ _ hch
    intro i rest' h
    cases hp : takeList takeRecord rest with
    | error e =>
      rw [hp] at h
      contradiction
    | ok x =>
      obtain ⟨props, rest''⟩ := x
      obtain ⟨⟨hlen, hok⟩, rfl⟩ := takeRecord_codec.takeList.sound _ _ _ hp
      rw [hp] at h
      simp only [Sys2Proof.field, Except.ok.injEq, Prod.mk.injEq] at h
      obtain ⟨rfl, rfl⟩ := h
      exact ⟨⟨by simpa [Instr.wf, hlen] using hok, rfl⟩, by simp [encode]⟩
  · exact ReadsWord.error _

/-- Row by row of the table of R131. -/
theorem decodeOperands_reads : ReadsWord c code inst bs (decodeOperands code inst bs) := by
  unfold decodeOperands
  refine .ite (fun _ => .zeroInst (.noField ⟨rfl, rfl⟩ rfl)) ?_
  refine .ite (fun _ => .zeroInst (.field takeByte_codec (fun _ _ => ⟨rfl, rfl⟩) fun _ => rfl)) ?_
  refine .ite (fun _ => .zeroInst (.noField ⟨rfl, rfl⟩ rfl)) ?_
  refine .ite (fun _ => .zeroInst (.field takeBytes_codec (fun _ h => ⟨h, rfl⟩) fun _ => rfl)) ?_
  refine .ite (fun _ => .zeroInst (.field takeBytes_codec (fun _ h => ⟨h, rfl⟩) fun _ => rfl)) ?_
  refine .ite (fun _ => .zeroInst (.field takeBytes_codec (fun _ h => ⟨h, rfl⟩) fun _ => rfl)) ?_
  refine .ite (fun _ => .field takeU32_codec (fun _ _ => ⟨rfl, rfl⟩) fun _ => rfl) ?_
  refine .ite (fun _ => .field takeBytes_codec (fun _ h => ⟨h, rfl⟩) fun _ => rfl) ?_
  refine .ite (fun _ => .field takeOptU32_codec (fun _ _ => ⟨rfl, rfl⟩) fun _ => rfl) ?_
  refine .ite (fun _ => .noField ⟨rfl, rfl⟩ rfl) ?_
  refine .ite (fun _ => takeUrConfig_reads) ?_
  refine .ite (fun _ => .field takeBytes_codec (fun _ h => ⟨h, rfl⟩) fun _ => rfl) ?_
  refine .ite (fun _ => .noField ⟨rfl, rfl⟩ rfl) ?_
  refine .ite (fun _ => .noField ⟨rfl, rfl⟩ rfl) ?_
  refine .ite (fun _ => .zeroInst takeRdConfig_reads) ?_
  refine .ite (fun _ => .zeroInst (.field takeBytes_codec.takeList (fun ps h => ⟨?_, rfl⟩) fun _ => rfl)) ?_
  · simpa [Instr.wf] using h
  refine .ite (fun _ => .zeroInst (.noField ⟨rfl, rfl⟩ rfl)) ?_
  exact .ite (fun _ => .zeroInst (.noField ⟨rfl, rfl⟩ rfl)) (.error _)

end

/-- The operand field of every well-formed host operation is read back. -/
theorem decodePrefix_encode (c : Config) {i : Instr} (hwf : i.wf = true) (hhost : i.isHost = true) (rest : List Byte) :
    decodePrefix (encode c i ++ rest) = .ok (i, rest) := by
  cases i
  case crcInit => rfl
  case crcUpdate b => rfl
  case crcRead => rfl
  case crcSum s => exact congrArg (field _) (takeBytes_codec.read s hwf rest)
  case frmBuild p => exact congrArg (field _) (takeBytes_codec.read p hwf rest)
  case frmParse s => exact congrArg (field _) (takeBytes_codec.read s hwf rest)
  case ufConstruct inst baud => exact congrArg (field _) (takeU32_codec.read baud trivial rest)
  case ufSend inst p => exact congrArg (field _) (takeBytes_codec.read p hwf rest)
  case ufReadFrame inst t => exact congrArg (field _) (takeOptU32_codec.read t trivial rest)
  case ufShutdown inst => rfl
  case urConstruct inst baud d st p =>
    change takeUrConfig inst (u32Bytes baud ++ [d, st, p] ++ rest) = _
    rw [takeUrConfig, List.append_assoc, takeU32_codec.read baud trivial]
    rfl
  case urWrite inst d => exact congrArg (field _) (takeBytes_codec.read d hwf rest)
  case urRead inst => rfl
  case urShutdown inst => rfl
  case rdConstruct ch props =>
    have hok : props.length < 65536 ∧ ∀ p ∈ props, wfRecord p = true := by simpa [Instr.wf] using hwf
    change takeRdConfig (u16Bytes ch ++ encList encRecord props ++ rest) = _
    rw [takeRdConfig, List.append_assoc, takeU16_codec.read ch trivial]
    exact congrArg (field _) (takeRecord_codec.takeList.read props hok rest)
  case rdTransmit ps =>
    have hok : ps.length < 65536 ∧ ∀ p ∈ ps, wfBytes p = true := by simpa [Instr.wf] using hwf
    exact congrArg (field _) (takeBytes_codec.takeList.read ps hok rest)
  case rdReceive => rfl
  case rdShutdown => rfl
  all_goals contradiction

/-- The two directions for one word with bytes after it. -/
theorem decodePrefix_codec (c : Config) : Codec decodePrefix (encode c) (fun i => i.wf = true ∧ i.isHost = true) where
  read _ hi rest := decodePrefix_encode c hi.1 hi.2 rest
  sound bs i rest h := by
    unfold decodePrefix at h
    split at h
    · obtain ⟨hi, he⟩ := decodeOperands_reads (c := c) i rest h
      exact ⟨hi, he.symm⟩
    · contradiction

/-- A word is the front of a stream with nothing after it (log entry 18). -/
theorem decodeHost_ok_iff {w : List Byte} {i : Instr} : decodeHost w = .ok i ↔ decodePrefix w = .ok (i, []) := by
  unfold decodeHost
  split
  · next h => rw [h]; simp
  · next h => rw [h]; simp
  · next h => rw [h]; simp

/-- Settles O13. Both halves are the codec of the word, built from the codecs of its fields. -/
theorem hostWordRoundTrip : Obligations.HostWordRoundTrip := by
  unfold Obligations.HostWordRoundTrip
  constructor
  · intro c i hwf hhost
    have hread := (decodePrefix_codec c).read i ⟨hwf, hhost⟩
    exact ⟨decodeHost_ok_iff.2 (by simpa using hread []), hread⟩
  · intro c w i h
    obtain ⟨⟨hwf, hhost⟩, hw⟩ := (decodePrefix_codec c).sound _ _ _ (decodeHost_ok_iff.1 h)
    exact ⟨hwf, hhost, by rw [hw, List.append_nil]⟩

end Sys2Proof
end

section
/-! PROOFS. Frames on the line, words that do not decode, and what a step does with the script (30_encoding.md R111, R128, R131, R134; 60_exceptions.md R318). -/

namespace Sys2Proof

/-! ### Frames and the radio length (R111, R128) -/

theorem decodeLine_encode (c : Config) (inst : Byte) {p : List Byte} (lo hi : Byte) (hp : p.length ≤ 255) :
    decodeLine inst (encode c (.frame inst p lo hi)) = .ok (.frame inst p lo hi) := by
  have htake : takeExact (BitVec.ofNat 8 p.length).toNat (p ++ [lo, hi]) = .ok (p, [lo, hi]) :=
    takeExact_ok_iff.2 ⟨(Machine.lenByte_toNat hp).symm, rfl⟩
  simp only [encode, decodeLine, htake, if_true]

/-- LEN is one byte, so no frame that decodes has more than 255 bytes of payload. -/
theorem decodeLine_ok {inst : Byte} {w : List Byte} {i : Instr} (h : decodeLine inst w = .ok i) :
    ∃ p lo hi, i = .frame inst p lo hi ∧ p.length ≤ 255
      ∧ w = sof :: BitVec.ofNat 8 p.length :: (p ++ [lo, hi]) := by
  unfold decodeLine at h
  split at h
  · next m len rest =>
    split at h
    · next hm =>
      split at h
      · next p lo hi htake =>
        obtain ⟨hlen, rfl⟩ := takeExact_ok_iff.1 htake
        have hlt : len.toNat < 256 := len.isLt
        cases h
        exact ⟨p, lo, hi, rfl, by omega, by rw [hm, hlen, BitVec.ofNat_toNat, BitVec.setWidth_eq]⟩
      all_goals contradiction
    · contradiction
  · contradiction

/-- Settles O14. Marker, length, payload and two bytes, read back by `takeExact`. -/
theorem lineRoundTrip : Obligations.LineRoundTrip := by
  unfold Obligations.LineRoundTrip
  intro c inst
  refine ⟨fun p lo hi hp => ⟨decodeLine_encode c inst lo hi hp, by simp [encode]⟩, fun w i h => decodeLine_ok h,
    fun hi lo => ⟨rfl, rfl⟩⟩

/-- Settles O15. The decoder, run on each word. -/
theorem specWordsDecode : Obligations.SpecWordsDecode := by
  unfold Obligations.SpecWordsDecode
  exact ⟨rfl, rfl, rfl, rfl, rfl, rfl, rfl, rfl, rfl⟩

/-! ### Words that do not decode (R134) -/

theorem decodeHost_of_operands_error {code inst : Byte} {w : List Byte} {e : DecodeError}
    (h : decodeOperands code inst w = .error e) : decodeHost (code :: inst :: w) = .error e := by
  simp only [decodeHost, decodePrefix, h]

/-- A code outside the table of R131. -/
theorem decodeOperands_unknown {code : Byte} (inst : Byte) (w : List Byte)
    (h : code ∉ ([0x01, 0x02, 0x03, 0x04, 0x10, 0x11, 0x20, 0x21, 0x22, 0x23, 0x30, 0x31, 0x32, 0x33,
      0x40, 0x41, 0x42, 0x43] : List Byte)) : decodeOperands code inst w = .error (.unknownCode code) := by
  simp only [List.mem_cons, List.not_mem_nil, or_false, not_or] at h
  simp only [decodeOperands, h, if_false]

/-- INST must be 0 on an operation without instances (R130). -/
theorem decodeOperands_instNotZero {code inst : Byte} (w : List Byte) (hinst : inst ≠ 0)
    (h : code ∈ ([0x01, 0x02, 0x03, 0x04, 0x10, 0x11, 0x40, 0x41, 0x42, 0x43] : List Byte)) :
    decodeOperands code inst w = .error (.instNotZero code) := by
  have hzero (code : Byte) (p : Parse Instr) : zeroInst code inst p = .error (.instNotZero code) := if_neg hinst
  simp only [List.mem_cons, List.not_mem_nil, or_false] at h
  obtain rfl | rfl | rfl | rfl | rfl | rfl | rfl | rfl | rfl | rfl := h <;> exact hzero _ _

namespace Machine

/-! ### A step performs the head of the script (log entry 1) -/

theorem step_nil {s : State} (h : s.script = []) : step s = .next s := by
  rw [step, h]

theorem step_cons {s : State} {e : Stimulus} {rest : List Stimulus} (h : s.script = e :: rest) :
    step s = perform e { s with script := rest } := by
  rw [step, h]

theorem perform_issue {w : List Byte} {i : Instr} (h : decodeHost w = .ok i) (s : State) :
    perform (.issue w) s = exec i s := by
  rw [perform, h]

theorem perform_issue_error {w : List Byte} {e : DecodeError} (h : decodeHost w = .error e) (s : State) :
    perform (.issue w) s = .next (s.answered (.error .illegal)) := by
  rw [perform, h, State.raise_accept s _ _ rfl]

/-- Bytes on the line are delivered, whether they decode as a frame or not. -/
theorem perform_line (inst : Byte) (bs : List Byte) (s : State) :
    perform (.line inst bs) s = .next (lineBytes inst bs s) := by
  simp only [perform]
  split
  · next i h =>
    obtain ⟨p, lo, hi, rfl, rfl⟩ := decodeLine_frame inst bs i h
    rfl
  · rfl

/-- Settles O16. The head of the script is taken off, and `perform` runs what it decodes to. -/
theorem stepRunsInstruction : Obligations.StepRunsInstruction := by
  unfold Obligations.StepRunsInstruction
  intro s rest
  refine ⟨fun w i h hw => ?_, fun a h => step_cons h, fun inst w i h hw => ?_, fun t b h => step_cons h, step_nil⟩
  · rw [step_cons h, perform_issue hw]
  · rw [step_cons h, perform, hw]

/-- Settles O17. The last clause is the test of INST that every operation on a controller makes first. -/
theorem illegalWord : Obligations.IllegalWord := by
  unfold Obligations.IllegalWord
  refine ⟨fun s w rest e h hw => ?_, fun code inst w h => ?_, fun code inst w h hinst => ?_, fun s inst h i hi => ?_⟩
  · rw [step_cons h, perform_issue_error hw]
  · exact ⟨_, decodeHost_of_operands_error (decodeOperands_unknown inst w h)⟩
  · exact ⟨_, decodeHost_of_operands_error (decodeOperands_instNotZero w hinst h)⟩
  · obtain ⟨_, rfl⟩ | ⟨_, rfl⟩ | ⟨_, rfl⟩ | rfl | ⟨_, _, _, _, rfl⟩ | ⟨_, rfl⟩ | rfl | rfl := hi <;>
      simp only [exec, execUfConstruct, execUfSend, execUfReadFrame, execUfShutdown, execUrConstruct, execUrWrite,
        execUrRead, execUrShutdown, onUart_none inst s _ h]

end Machine

end Sys2Proof
end

section
/-! PROOFS. Operations in progress: a freshly issued operation and the controller it works on, and which row `resume` takes (10_state.md R33; 20_memory.md R102). -/

namespace Sys2Proof.Machine

/-! ### A freshly issued operation -/

section
variable (s : State) (op : HostOp)

@[simp] theorem State.issued_cfg : (s.issued op).cfg = s.cfg := rfl
@[simp] theorem State.issued_crc : (s.issued op).crc = s.crc := rfl
@[simp] theorem State.issued_fbCrc : (s.issued op).fbCrc = s.fbCrc := rfl
@[simp] theorem State.issued_uarts : (s.issued op).uarts = s.uarts := rfl
@[simp] theorem State.issued_radio : (s.issued op).radio = s.radio := rfl
@[simp] theorem State.issued_ops : (s.issued op).ops = s.ops ++ [(s.nextTicket, op)] := rfl
@[simp] theorem State.issued_nextTicket : (s.issued op).nextTicket = s.nextTicket + 1 := rfl
@[simp] theorem State.answered_cfg (r : Response) : (s.answered r).cfg = s.cfg := rfl
@[simp] theorem State.answered_crc (r : Response) : (s.answered r).crc = s.crc := rfl
@[simp] theorem State.answered_fbCrc (r : Response) : (s.answered r).fbCrc = s.fbCrc := rfl
@[simp] theorem State.answered_uarts (r : Response) : (s.answered r).uarts = s.uarts := rfl
@[simp] theorem State.answered_radio (r : Response) : (s.answered r).radio = s.radio := rfl
@[simp] theorem State.answered_ops (r : Response) : (s.answered r).ops = s.ops := rfl
@[simp] theorem State.answered_nextTicket (r : Response) : (s.answered r).nextTicket = s.nextTicket + 1 := rfl
@[simp] theorem State.ended_cfg (t : Nat) (r : Response) : (s.ended t r).cfg = s.cfg := rfl
@[simp] theorem State.ended_crc (t : Nat) (r : Response) : (s.ended t r).crc = s.crc := rfl
@[simp] theorem State.ended_fbCrc (t : Nat) (r : Response) : (s.ended t r).fbCrc = s.fbCrc := rfl
@[simp] theorem State.ended_uarts (t : Nat) (r : Response) : (s.ended t r).uarts = s.uarts := rfl
@[simp] theorem State.ended_radio (t : Nat) (r : Response) : (s.ended t r).radio = s.radio := rfl
@[simp] theorem State.ended_ops (t : Nat) (r : Response) : (s.ended t r).ops = s.ops.filter (fun e => e.1 != t) := rfl
@[simp] theorem State.ended_nextTicket (t : Nat) (r : Response) : (s.ended t r).nextTicket = s.nextTicket := rfl

end

/-- The state in which the operation `op` has been issued on `s` and its controller has become `u`. -/
def State.working (s : State) (i : Nat) (u : Uart) (op : HostOp) : State := (s.setUart i u).issued op

/-- The same for an operation of the radio. -/
def State.workingRadio (s : State) (r : Radio) (op : HostOp) : State := (s.setRadio r).issued op

section
variable {s : State} (i : Nat) (u v : Uart) (r r' : Radio) (op op' : HostOp)

@[simp] theorem State.working_cfg : (s.working i u op).cfg = s.cfg := rfl
@[simp] theorem State.working_setUart : (s.working i u op).setUart i v = s.working i v op := by
  rw [State.working, State.working, ← State.setUart_setUart s i u v]
  rfl
@[simp] theorem State.workingRadio_radio : (s.workingRadio r op).radio = r := rfl
@[simp] theorem State.workingRadio_setRadio : (s.workingRadio r op).setRadio r' = s.workingRadio r' op := rfl

variable {u} in
/-- An operation that is issued finds its controller as it was. -/
theorem State.issued_eq_working (h : s.uarts[i]? = some u) : s.issued op = s.working i u op := by
  rw [State.working, s.setUart_self i u h]

variable {u} in
theorem State.working_get (h : s.uarts[i]? = some u) : (s.working i v op).uarts[i]? = some v :=
  s.setUart_get i u v h

variable (hf : s.FreshTicket)
include hf

theorem State.findOp_working : (s.working i u op).findOp s.nextTicket = some op :=
  State.findOp_issued (s.setUart i u) op hf

theorem State.working_setOp : (s.working i u op).setOp s.nextTicket op' = s.working i u op' :=
  State.setOp_issued (s.setUart i u) op op' hf

theorem State.working_complete (x : Result) :
    (s.working i u op).complete s.nextTicket x = (s.setUart i u).answered (.ok x) :=
  State.ended_issued (s.setUart i u) op (.ok x) hf

theorem State.findOp_workingRadio : (s.workingRadio r op).findOp s.nextTicket = some op :=
  State.findOp_issued (s.setRadio r) op hf

theorem State.workingRadio_setOp : (s.workingRadio r op).setOp s.nextTicket op' = s.workingRadio r op' :=
  State.setOp_issued (s.setRadio r) op op' hf

theorem State.workingRadio_complete (x : Result) :
    (s.workingRadio r op).complete s.nextTicket x = (s.setRadio r).answered (.ok x) :=
  State.ended_issued (s.setRadio r) op (.ok x) hf

end

/-! ### Which row `resume` takes -/

section
variable {s : State} {t i : Nat} {u : Uart} (b : Bool)

section
variable (hu : s.uarts[i]? = some u)
include hu

theorem resume_send {f : List Byte} {q : SendSeq} (h : s.findOp t = some (.send i f q)) :
    resume t b s = .next (sendStep t i f q u s) := by
  simp only [resume, h, onInstance, hu]

theorem resume_readFrame {bounded : Bool} (h : s.findOp t = some (.readFrame i bounded)) :
    resume t b s = .next (readFrameStep t i bounded b u s) := by
  simp only [resume, h, onInstance, hu]

theorem resume_ufShutdown {st : UfShut} (h : s.findOp t = some (.ufShutdown i st)) :
    resume t b s = .next (ufShutdownStep t i st b u s) := by
  simp only [resume, h, onInstance, hu]

theorem resume_urWrite {d : List Byte} (h : s.findOp t = some (.urWrite i d)) :
    resume t b s = .next (urWriteStep t i d u s) := by
  simp only [resume, h, onInstance, hu]

theorem resume_urRead (h : s.findOp t = some (.urRead i)) : resume t b s = .next (urReadStep t i u s) := by
  simp only [resume, h, onInstance, hu]

theorem resume_urShutdown {st : UrShut} (h : s.findOp t = some (.urShutdown i st)) :
    resume t b s = urShutdownStep t i st b u s := by
  simp only [resume, h, onInstance, hu]

end

theorem resume_rdConstruct {ch : Word16} {props : List PropRecord} (h : s.findOp t = some (.rdConstruct ch props)) :
    resume t b s = .next (consStep t ch props s) := by
  simp only [resume, h]

theorem resume_rdTransmit {ps : List (List Byte)} (h : s.findOp t = some (.rdTransmit ps)) :
    resume t b s = .next (rdTransmitStep t ps s) := by
  simp only [resume, h]

theorem resume_rdReceive (h : s.findOp t = some .rdReceive) : resume t b s = .next (rdReceiveStep t s) := by
  simp only [resume, h]

theorem resume_rdShutdown {st : RdShut} (h : s.findOp t = some (.rdShutdown st)) :
    resume t b s = .next (rdShutdownStep t st b s) := by
  simp only [resume, h]

end

theorem Mutex.isFree_iff (m : Mutex) : m.isFree = true ↔ m = .free := by
  simp [Mutex.isFree]

end Sys2Proof.Machine
end

section
/-! PROOFS. The framed UART controller: sending, reading, shutdown, the receiver, and operations in the wrong state (42_uart_framed.md). -/

namespace Sys2Proof.Machine

/-! ### The operations as they are issued -/

section
variable {s : State} {inst : Byte} {u : Uart} (hu : s.uarts[inst.toNat]? = some u)
include hu

theorem exec_ufSend (p : List Byte) :
    exec (.ufSend inst p) s = whenReady .framed s.nextTicket u s.accept (.next
      (if payloadFits p then s.issued (.send inst.toNat (buildFrame p) .waitLock)
      else s.answered (.error (.size 0 p.length)))) := by
  simp only [exec, execUfSend, onUart_some inst s u _ hu, State.addOp_accept s _ _ rfl, State.raise_accept s _ _ rfl]

theorem exec_ufReadFrame (timeout : Option Word32) :
    exec (.ufReadFrame inst timeout) s = whenReady .framed s.nextTicket u s.accept (.next
      (match popFrame inst.toNat u s.accept with
      | some (p, s') => s'.answer s.nextTicket (.opt (some p))
      | none => if timeout = some 0 then s.answered (.ok (.opt none))
          else s.issued (.readFrame inst.toNat timeout.isSome))) := by
  simp only [exec, execUfReadFrame, onUart_some inst s u _ hu]
  cases popFrame inst.toNat u s.accept with
  | some _ => rfl
  | none =>
    cases timeout with
    | none => rfl
    | some ms => by_cases h : ms = 0 <;> simp [h, State.answer_accept, State.addOp_accept]

theorem exec_ufShutdown :
    exec (.ufShutdown inst) s =
      if u.mode == .framed && s.shutdownInProgress inst.toNat then .refused .overlappingShutdown
      else whenReady .framed s.nextTicket u s.accept
        (if s.sendInProgress inst.toNat then .refused .shutdownDuringSend
        else .next ((s.setUart inst.toNat { u with lc := .shut, run := false }).issued
          (.ufShutdown inst.toNat .join))) := by
  simp only [exec, execUfShutdown, onUart_some inst s u _ hu]
  rfl

theorem exec_urWrite (d : List Byte) :
    exec (.urWrite inst d) s = whenReady .raw s.nextTicket u s.accept (whenBytes u (.next
      (match appendPending inst.toNat d u s.accept with
      | some s' => s'.answer s.nextTicket .none
      | none => s.issued (.urWrite inst.toNat d)))) := by
  simp only [exec, execUrWrite, onUart_some inst s u _ hu]
  rfl

theorem exec_urRead :
    exec (.urRead inst) s = whenReady .raw s.nextTicket u s.accept (whenBytes u (.next
      (match drainReceived inst.toNat u s.accept with
      | some (d, s') => s'.answer s.nextTicket (.bytes d)
      | none => s.issued (.urRead inst.toNat)))) := by
  simp only [exec, execUrRead, onUart_some inst s u _ hu]
  rfl

theorem exec_urShutdown :
    exec (.urShutdown inst) s =
      if u.mode == .raw && s.shutdownInProgress inst.toNat then .refused .overlappingShutdown
      else whenReady .raw s.nextTicket u s.accept
        (.next ((s.setUart inst.toNat { u with lc := .shut }).issued (.urShutdown inst.toNat .drain))) := by
  simp only [exec, execUrShutdown, onUart_some inst s u _ hu]
  rfl

end

/-- A shutdown overlaps one of its own mode only (log entry 41). -/
theorem not_overlapping {u : Uart} {m : Mode} {busy : Bool} (h : busy = false ∨ u.mode ≠ m) :
    ¬ (u.mode == m && busy) = true := by
  obtain h | h := h <;> simp [h]

/-- Settles O24. Each operation comes to the test of lifecycle and mode, `whenReady_no`. -/
theorem uartStateErrors : Obligations.UartStateErrors := by
  unfold Obligations.UartStateErrors
  intro s inst u hu
  refine ⟨fun h => ⟨fun p => ?_, fun timeout => ?_, fun hn => ?_⟩, fun h => ⟨fun d => ?_, ?_, fun hn => ?_⟩,
    fun h => ⟨exec_ufConstruct_state hu h, exec_urConstruct_state hu h⟩⟩
  · rw [exec_ufSend hu, whenReady_no _ _ _ _ h]
  · rw [exec_ufReadFrame hu, whenReady_no _ _ _ _ h]
  · rw [exec_ufShutdown hu, if_neg (not_overlapping hn), whenReady_no _ _ _ _ h]
  · rw [exec_urWrite hu, whenReady_no _ _ _ _ h]
  · rw [exec_urRead hu, whenReady_no _ _ _ _ h]
  · rw [exec_urShutdown hu, if_neg (not_overlapping hn), whenReady_no _ _ _ _ h]

/-! ### Sending (R191, R192) -/

section
variable {s : State} {inst : Byte} {u : Uart} {p : List Byte} (hu : s.uarts[inst.toNat]? = some u)
include hu

theorem exec_ufSend_ready (hlc : u.lc = .running) (hm : u.mode = .framed) :
    exec (.ufSend inst p) s = .next
      (if p.length ≤ 255 then s.issued (.send inst.toNat (buildFrame p) .waitLock)
      else s.answered (.error (.size 0 p.length))) := by
  rw [exec_ufSend hu, whenReady_yes _ _ _ _ _ hlc hm]
  simp only [payloadFits_iff]

end

section
variable {s : State} {t i : Nat} {f : List Byte} {u : Uart}

theorem sendStep_waitLock_free (h : u.sendLock = .free) :
    sendStep t i f .waitLock u s =
      (s.setUart i { u with sendLock := .held (.host t) }).setOp t (.send i f .toTx) := by
  simp only [sendStep, (Mutex.isFree_iff _).2 h, if_true]

theorem sendStep_waitLock_taken (h : u.sendLock ≠ .free) : sendStep t i f .waitLock u s = s := by
  simp only [sendStep, Mutex.isFree_iff, h, if_false]

theorem sendStep_write {k : Nat} {b : Byte} (h : f[k]? = some b) :
    sendStep t i f (.write k) u s =
      (s.setUart i (u.tx s.cfg b)).setOp t (.send i f (if k + 1 < f.length then .write (k + 1) else .flush)) := by
  simp only [sendStep, h]

end

/-- The byte is the last of the frame, or the next one follows. -/
theorem nextWrite_eq {f : List Byte} {k : Nat} {x : Byte} (h : f[k]? = some x) :
    (if k + 1 < f.length then SendSeq.write (k + 1) else .flush)
      = if k = f.length - 1 then .flush else .write (k + 1) := by
  have hk : k < f.length := (List.getElem?_eq_some_iff.1 h).1
  by_cases hlast : k = f.length - 1
  · rw [if_neg (by omega), if_pos hlast]
  · rw [if_pos (by omega), if_neg hlast]

/-- Settles O21. Row IDLE is the operation as it is issued; each later row is one case of `sendStep`. -/
theorem sendRows : Obligations.SendRows := by
  unfold Obligations.SendRows
  constructor
  · intro s inst p u hu
    by_cases h : u.lc = .running ∧ u.mode = .framed
    · rw [if_pos h, exec_ufSend_ready hu h.1 h.2]
    · rw [if_neg h, exec_ufSend hu, whenReady_no _ _ _ _ (not_and_or.1 h)]
  · intro s t i b f q u hop hu
    rw [resume_send b hu hop]
    refine ⟨fun hq hl => ?_, fun hq hl => ?_, fun hq => ?_, fun k x hq hx ho hd => ?_, fun hq => ?_, fun hq => ?_,
      fun hq => ?_, fun hq => ?_⟩ <;> subst hq
    · rw [sendStep_waitLock_free hl]
    · rw [sendStep_waitLock_taken hl]
    · rfl
    · rw [sendStep_write hx, Uart.tx_open _ _ _ ho hd, nextWrite_eq hx]
    · rfl
    · rfl
    · rfl
    · rfl

section
variable {s : State} {i : Nat} {f : List Byte} {u₀ : Uart} (hf : s.FreshTicket) (hu : s.uarts[i]? = some u₀) (b : Bool)
include hf hu

/-- One row of a freshly issued send. -/
theorem resume_working_send (u : Uart) (q : SendSeq) :
    resume s.nextTicket b (s.working i u (.send i f q)) =
      .next (sendStep s.nextTicket i f q u (s.working i u (.send i f q))) :=
  resume_send b (State.working_get i u _ hu) (State.findOp_working i u _ hf)

/-- The rows WRITE put the bytes on the line in order. -/
theorem resumeMany_write (u : Uart) {pre : List Byte} {x : Byte} {post : List Byte} (hsplit : f = pre ++ x :: post) :
    resumeMany (post.length + 1) s.nextTicket b (s.working i u (.send i f (.write pre.length))) =
      .next (s.working i (u.txAll s.cfg (x :: post)) (.send i f .flush)) := by
  have hx : f[pre.length]? = some x := by simp [hsplit]
  have hrow := resume_working_send hf hu (f := f) b u (.write pre.length)
  rw [sendStep_write hx, State.working_setUart, State.working_setOp _ _ _ _ hf] at hrow
  induction post generalizing u pre x with
  | nil =>
    have hlast : ¬ pre.length + 1 < f.length := by simp [hsplit]
    rw [if_neg hlast] at hrow
    exact resumeMany_succ 0 _ _ _ _ hrow
  | cons y post ih =>
    have hmore : pre.length + 1 < f.length := by simp [hsplit]
    have hy : f[(pre ++ [x]).length]? = some y := by simp [hsplit]
    have hrow' := resume_working_send hf hu (f := f) b (u.tx s.cfg x) (.write (pre ++ [x]).length)
    rw [sendStep_write hy, State.working_setUart, State.working_setOp _ _ _ _ hf] at hrow'
    rw [if_pos hmore] at hrow
    rw [List.length_cons, resumeMany_succ _ _ _ _ _ hrow]
    have hrest := ih (u.tx s.cfg x) (pre := pre ++ [x]) (x := y) (by simp [hsplit]) hy hrow'
    rwa [List.length_append] at hrest

/-- The whole send when no other agent moves: two rows, one for each byte of the frame, four rows. -/
theorem resumeMany_send {u : Uart} (hl : u.sendLock = .free) (hframe : f ≠ []) :
    resumeMany (2 + (f.length + 4)) s.nextTicket b (s.working i u (.send i f .waitLock)) =
      .next ((s.setUart i { ({ u with sendLock := .held (.host s.nextTicket), dir := .tx } : Uart).txAll s.cfg f with
        dir := .rx, sendLock := .free }).answered (.ok .none)) := by
  have hlock : resumeMany 2 s.nextTicket b (s.working i u (.send i f .waitLock)) =
      .next (s.working i { u with sendLock := .held (.host s.nextTicket), dir := .tx } (.send i f (.write 0))) := by
    simp only [resumeMany, resume_working_send hf hu, sendStep, (Mutex.isFree_iff _).2 hl, if_true,
      State.working_setUart, State.working_setOp _ _ _ _ hf]
  obtain ⟨x, post, rfl⟩ := List.exists_cons_of_ne_nil hframe
  have hwrite := resumeMany_write hf hu (f := x :: post) b
    { u with sendLock := .held (.host s.nextTicket), dir := .tx } (pre := []) rfl
  rw [List.length_nil] at hwrite
  rw [List.length_cons, resumeMany_add _ _ _ _ _ _ hlock, resumeMany_add _ _ _ _ _ _ hwrite]
  simp only [resumeMany, resume_working_send hf hu, sendStep, State.working_setUart, State.working_setOp _ _ _ _ hf,
    State.working_complete _ _ _ hf]

end

theorem buildFrame_ne_nil (p : List Byte) : buildFrame p ≠ [] := List.cons_ne_nil _ _

/-- Settles O20. The run is `resumeMany_send`; on an open UART with DIR = TX the bytes of a frame are transmitted by
`Uart.txAll_open`. -/
theorem ufSendRuns : Obligations.UfSendRuns := by
  unfold Obligations.UfSendRuns
  intro s inst p u hu
  refine ⟨fun hlc => ?_, decodeHost_bytes fun _ => rfl, fun hlc hm hp => ?_, fun hlc hm hp => ?_,
    fun hlc hm hp ho hl hf => ?_⟩
  · rw [exec_ufSend hu, whenReady_no _ _ _ _ (.inl hlc)]
  · rw [exec_ufSend_ready hu hlc hm, if_neg (by omega)]
  · rw [exec_ufSend_ready hu hlc hm, if_pos hp]
  · have hrows : p.length + 10 = 2 + ((buildFrame p).length + 4) := by
      rw [length_buildFrame]
      omega
    have htx := Uart.txAll_open s.cfg (buildFrame p)
      { u with sendLock := .held (.host s.nextTicket), dir := .tx } ho rfl
    rw [State.issued_eq_working _ _ hu, hrows, resumeMany_send hf hu false hl (buildFrame_ne_nil p), htx, hl]

end Sys2Proof.Machine
end

section
/-! PROOFS. The framed UART controller: reading, shutdown and the receiver (42_uart_framed.md R196 to R202). -/

namespace Sys2Proof.Machine

/-! ### Reading (R198) -/

theorem popFrame_cons (i : Nat) {u : Uart} {p : List Byte} {rest : List (List Byte)} (h : u.rxq = p :: rest) (s : State) :
    popFrame i u s = some (p, s.setUart i { u with rxq := rest }) := by
  simp only [popFrame, h]

theorem popFrame_nil (i : Nat) {u : Uart} (h : u.rxq = []) (s : State) : popFrame i u s = none := by
  simp only [popFrame, h]

/-- Settles O22. What the operation does, as it is issued and later, is what `popFrame` finds. -/
theorem ufReadFrame : Obligations.UfReadFrame := by
  unfold Obligations.UfReadFrame
  constructor
  · intro s inst timeout u hu
    refine ⟨fun hlc => ?_, fun p rest hlc hm hq => ?_, fun hlc hm hq => ?_, rfl, fun a b c d => rfl⟩
    · rw [exec_ufReadFrame hu, whenReady_no _ _ _ _ (.inl hlc)]
    · rw [exec_ufReadFrame hu, whenReady_yes _ _ _ _ _ hlc hm, popFrame_cons _ hq]
      rfl
    · rw [exec_ufReadFrame hu, whenReady_yes _ _ _ _ _ hlc hm, popFrame_nil _ hq]
  · intro s t i bounded b u hop hu
    rw [resume_readFrame b hu hop, readFrameStep]
    refine ⟨fun p rest hq => ?_, fun hq hbounded hb => ?_, fun hq hb => ?_⟩
    · rw [popFrame_cons _ hq]
      rfl
    · rw [popFrame_nil _ hq, hbounded, hb]
      rfl
    · have : ¬ (bounded && b) = true := by obtain h | h := hb <;> simp [h]
      simp only [popFrame_nil _ hq, if_neg this]

/-! ### Shutdown (R199) -/

section
variable {s : State} {inst : Byte} {u : Uart} (hu : s.uarts[inst.toNat]? = some u)
include hu

theorem exec_ufShutdown_running (hlc : u.lc = .running) (hm : u.mode = .framed)
    (hn : s.shutdownInProgress inst.toNat = false) (hsend : s.sendInProgress inst.toNat = false) :
    exec (.ufShutdown inst) s =
      .next (s.working inst.toNat { u with lc := .shut, run := false } (.ufShutdown inst.toNat .join)) := by
  rw [exec_ufShutdown hu, if_neg (not_overlapping (.inl hn)), whenReady_yes _ _ _ _ _ hlc hm, hsend]
  rfl

end

theorem ufShutdownStep_join {s : State} {t i : Nat} {b : Bool} {u : Uart} (h : u.seqUfRx = .stopped ∨ b = true) :
    ufShutdownStep t i .join b u s = s.setOp t (.ufShutdown i .close) := by
  rw [ufShutdownStep, if_pos (by obtain h | h := h <;> simp [h])]

theorem ufShutdownStep_close (t i : Nat) (b : Bool) (u : Uart) (s : State) :
    ufShutdownStep t i .close b u s =
      (s.setUart i { u with uartOpen := false }).setOp t (.ufShutdown i .release) := rfl

theorem ufShutdownStep_release (t i : Nat) (b : Bool) (u : Uart) (s : State) :
    ufShutdownStep t i .release b u s = (s.setUart i { u with dir := .released }).complete t .none := rfl

section
variable {s : State} {i : Nat} {u₀ : Uart} (hf : s.FreshTicket) (hu : s.uarts[i]? = some u₀) (b : Bool) (u : Uart)
include hf hu

theorem resume_working_ufShutdown (st : UfShut) :
    resume s.nextTicket b (s.working i u (.ufShutdown i st)) =
      .next (ufShutdownStep s.nextTicket i st b u (s.working i u (.ufShutdown i st))) :=
  resume_ufShutdown b (State.working_get i u _ hu) (State.findOp_working i u _ hf)

/-- The three rows of a shutdown whose join is over. -/
theorem performMany_ufShutdown (h : u.seqUfRx = .stopped ∨ b = true) :
    performMany (List.replicate 3 (.resume s.nextTicket b)) (s.working i u (.ufShutdown i .join)) =
      .next ((s.setUart i { u with uartOpen := false, dir := .released }).answered (.ok .none)) := by
  simp only [List.replicate, performMany, perform, resume_working_ufShutdown hf hu, ufShutdownStep_join h,
    ufShutdownStep_close, ufShutdownStep_release, State.working_setUart, State.working_setOp _ _ _ _ hf,
    State.working_complete _ _ _ hf]

end

/-- One iteration of UF_RX, on a state that another operation works on. -/
theorem exec_ufRxStep {s : State} {inst : Byte} {u : Uart} (hu : s.uarts[inst.toNat]? = some u) :
    exec (.ufRxStep inst) s = .next (s.setUart inst.toNat u.ufRxStep) := by
  simp only [exec, execUfRxStep, hu]

theorem Uart.ufRxStep_stop {u : Uart} (hq : u.seqUfRx = .running) (hr : u.run = false) :
    u.ufRxStep = { u with seqUfRx := .stopped } := by
  simp [Uart.ufRxStep, hq, hr]

/-- Settles O23. The three runs differ in how the join ends; behind it stand the same rows, `performMany_ufShutdown`. -/
theorem ufShutdownRuns : Obligations.UfShutdownRuns := by
  unfold Obligations.UfShutdownRuns
  constructor
  · intro s inst u hu hm hn
    have hword : decodeHost [0x23, inst] = .ok (.ufShutdown inst) := rfl
    refine ⟨fun hlc => ?_, hword, fun hlc hsend => exec_ufShutdown_running hu hlc hm hn hsend,
      fun b hlc hsend hf hq => ?_, fun hlc hsend hf hq => ?_⟩
    · rw [exec_ufShutdown hu, if_neg (not_overlapping (.inl hn)), whenReady_no _ _ _ _ (.inl hlc)]
    · have hissue := (perform_issue hword s).trans (exec_ufShutdown_running hu hlc hm hn hsend)
      rw [List.singleton_append, performMany_cons _ _ _ _ hissue,
        performMany_ufShutdown hf hu b { u with lc := .shut, run := false } hq]
    · have hissue := (perform_issue hword s).trans (exec_ufShutdown_running hu hlc hm hn hsend)
      have hwait : perform (.resume s.nextTicket false)
            (s.working inst.toNat { u with lc := .shut, run := false } (.ufShutdown inst.toNat .join)) =
          .next (s.working inst.toNat { u with lc := .shut, run := false } (.ufShutdown inst.toNat .join)) := by
        rw [perform, resume_working_ufShutdown hf hu, ufShutdownStep]
        simp [hq]
      have hstop : perform (.agent (.ufRx inst))
            (s.working inst.toNat { u with lc := .shut, run := false } (.ufShutdown inst.toNat .join)) =
          .next (s.working inst.toNat { u with lc := .shut, run := false, seqUfRx := .stopped }
            (.ufShutdown inst.toNat .join)) := by
        rw [perform, AgentStep.instr, exec_ufRxStep (State.working_get _ _ _ hu), State.working_setUart,
          Uart.ufRxStep_stop (u := { u with lc := .shut, run := false }) hq rfl]
      rw [List.cons_append, performMany_cons _ _ _ _ hissue, List.cons_append, performMany_cons _ _ _ _ hwait,
        List.cons_append, performMany_cons _ _ _ _ hstop, List.nil_append,
        performMany_ufShutdown hf hu false _ (.inl rfl)]
  · intro s t i b u hu
    refine ⟨fun hop h => ?_, fun hop hq hb => ?_, fun hop => ?_, fun hop => ?_⟩ <;> rw [resume_ufShutdown b hu hop]
    · rw [ufShutdownStep_join h]
    · simp [ufShutdownStep, hq, hb]
    · rfl
    · rfl

/-! ### The receiver (R196, R197) -/

/-- Settles O25. Each row is one branch of `Uart.ufRxStep`. -/
theorem ufRxRows : Obligations.UfRxRows := by
  unfold Obligations.UfRxRows
  intro s inst u hu
  have hself : s.setUart inst.toNat u = s := s.setUart_self _ u hu
  rw [exec_ufRxStep hu]
  refine ⟨fun hq => ?_, fun hq => ?_, fun hq hr => ?_, fun hq hr he => ?_, fun hq hr he ho ha => ?_,
    fun hq hr he h => ?_⟩
  · rw [Uart.ufRxStep, hq, hself]
  · rw [Uart.ufRxStep, hq]
  · rw [Uart.ufRxStep_stop hq hr]
  · simp [Uart.ufRxStep, hq, hr, he]
  · simp [Uart.ufRxStep, hq, hr, he, ho, ha, Uart.receive]
  · have : ¬ (u.uartOpen && !u.rxAvail.isEmpty) = true := by obtain h | h := h <;> simp [h]
    simp [Uart.ufRxStep, hq, hr, he, this, hself]

/-! ### What the line carries (R98, R195, R197) -/

section
variable {s : State} {inst : Byte}

theorem lineBytes_open {u : Uart} (hu : s.uarts[inst.toNat]? = some u) (ho : u.uartOpen = true)
    (hd : u.dir ≠ .tx ∨ s.cfg.echoInTx = true) (bs : List Byte) :
    lineBytes inst bs s =
      s.setUart inst.toNat { u with rxAvail := u.rxAvail ++ bs, lineIn := u.lineIn ++ bs } := by
  simp only [lineBytes, hu, Uart.deliver_open _ _ _ ho hd]

theorem lineBytes_deaf {u : Uart} (hu : s.uarts[inst.toNat]? = some u)
    (h : u.uartOpen = false ∨ (u.dir = .tx ∧ s.cfg.echoInTx = false)) (bs : List Byte) : lineBytes inst bs s = s := by
  simp only [lineBytes, hu, Uart.deliver_deaf _ _ _ h, s.setUart_self _ u hu]

theorem lineBytes_none (hu : s.uarts[inst.toNat]? = none) (bs : List Byte) : lineBytes inst bs s = s := by
  simp only [lineBytes, hu]

end

theorem exec_frame (inst : Byte) (p : List Byte) (lo hi : Byte) (s : State) :
    exec (.frame inst p lo hi) s =
      .next (lineBytes inst (0x7E :: BitVec.ofNat 8 p.length :: (p ++ [lo, hi])) s) := rfl

/-- Settles O26. A frame and any other bytes come to `lineBytes`; a read error writes one register. -/
theorem frameArrives : Obligations.FrameArrives := by
  unfold Obligations.FrameArrives
  intro s inst p lo hi
  rw [exec_frame]
  refine ⟨fun u hu ho hd => ?_, fun u hu h => ?_, fun hu => ?_, fun bs rest hs => ?_, fun rest hs => ?_⟩
  · rw [lineBytes_open hu ho hd]
  · rw [lineBytes_deaf hu h]
  · rw [lineBytes_none hu]
  · rw [step_cons hs, perform_line]
    exact ⟨fun u hu ho hd => congrArg _ (lineBytes_open (s := { s with script := rest }) hu ho hd bs),
      fun u hu h => congrArg _ (lineBytes_deaf (s := { s with script := rest }) hu h bs),
      fun hu => congrArg _ (lineBytes_none (s := { s with script := rest }) hu bs)⟩
  · rw [step_cons hs, perform]
    exact ⟨fun u hu => by simp only [lineError, hu], fun hu => by simp only [lineError, hu]⟩

/-! ### Frames one after the other (R202) -/

/-- A running framed controller that listens, has nothing to take and waits for a marker. -/
structure Uart.Listening (u : Uart) : Prop where
  seqUfRx : u.seqUfRx = .running
  run : u.run = true
  readErr : u.readErr = false
  uartOpen : u.uartOpen = true
  dir : u.dir = .rx
  rxBuf : u.rxBuf = []
  rxAvail : u.rxAvail = []
  seqScan : u.seqScan = .hunt

/-- With its own checksum bytes the frame on the line is the built one. -/
theorem exec_built_frame (inst : Byte) (p : List Byte) (s : State) :
    exec (.frame inst p ((crcSum (frameBody p)).extractLsb' 0 8) ((crcSum (frameBody p)).extractLsb' 8 8)) s =
      .next (lineBytes inst (buildFrame p) s) := rfl

/-- The byte-serial scanner in HUNT takes a built frame and is in HUNT again. -/
theorem scanBytes_buildFrame {r : ScanRegs} (hr : r.seq = .hunt) {p : List Byte} (hp : p.length ≤ 255) :
    (scanBytes r (buildFrame p)).1.seq = .hunt := by
  have hscan : scan (buildFrame p) = ⟨[], [p]⟩ := by
    rw [← List.append_nil (buildFrame p), scan_buildFrame_append hp, scan_nil]
  have h : ScanAgrees [] r := .inl ⟨rfl, hr⟩
  have hagrees := (h.scan_append_agrees (buildFrame p)).2
  rw [List.nil_append, hscan] at hagrees
  obtain ⟨-, hs⟩ | ⟨hb, -⟩ | ⟨_, _, hb, -⟩ | ⟨_, _, hb, -⟩ | ⟨_, _, _, hb, -⟩ := hagrees
  · exact hs
  all_goals contradiction

/-- One frame arrives and is taken: its payload is queued, and the controller listens again. -/
theorem receive_frame {s : State} {inst : Byte} {u : Uart} (hu : s.uarts[inst.toNat]? = some u) (h : u.Listening)
    {p : List Byte} (hp : p.length ≤ 255) :
    ∃ v : Uart, execMany [.frame inst p ((crcSum (frameBody p)).extractLsb' 0 8)
        ((crcSum (frameBody p)).extractLsb' 8 8), .ufRxStep inst] s = .next (s.setUart inst.toNat v)
      ∧ v.Listening ∧ v.rxq = u.rxq ++ [p] ∧ v.lineIn = u.lineIn ++ buildFrame p ∧ v.diag = u.diag := by
  obtain ⟨hq, hr, he, ho, hd, hbuf, ha, hs⟩ := h
  have hscan : scan (buildFrame p) = ⟨[], [p]⟩ := by
    rw [← List.append_nil (buildFrame p), scan_buildFrame_append hp, scan_nil]
  have hlisten : u.dir ≠ .tx ∨ s.cfg.echoInTx = true := .inl (by rw [hd]; decide)
  have harrive := exec_built_frame inst p s
  rw [lineBytes_open hu ho hlisten, ha, List.nil_append] at harrive
  have htake : ({ u with rxAvail := buildFrame p, lineIn := u.lineIn ++ buildFrame p } : Uart).ufRxStep
      = ({ u with rxAvail := buildFrame p, lineIn := u.lineIn ++ buildFrame p } : Uart).receive := by
    simp [Uart.ufRxStep, hq, hr, he, ho, buildFrame]
  have hreceive : ({ u with rxAvail := buildFrame p, lineIn := u.lineIn ++ buildFrame p } : Uart).receive =
      ({ u with rxBuf := [], rxq := u.rxq ++ [p], rxAvail := [], lineIn := u.lineIn ++ buildFrame p } : Uart).setScanRegs
        (scanBytes u.scanRegs (buildFrame p)).1 := by
    simp only [Uart.receive, hbuf, List.nil_append, hscan, Uart.scanRegs]
  refine ⟨({ u with rxBuf := [], rxq := u.rxq ++ [p], rxAvail := [], lineIn := u.lineIn ++ buildFrame p } :
    Uart).setScanRegs (scanBytes u.scanRegs (buildFrame p)).1, ?_,
    ⟨hq, hr, he, ho, hd, rfl, rfl, scanBytes_buildFrame hs hp⟩, rfl, rfl, rfl⟩
  rw [execMany_cons _ _ _ _ harrive, execMany_cons _ _ _ _ (exec_ufRxStep (s.setUart_get _ u _ hu)), htake, hreceive,
    State.setUart_setUart]
  rfl

/-- Settles O27. One frame after the other: each finds the controller listening and leaves it so. -/
theorem loopbackDelivers : Obligations.LoopbackDelivers := by
  unfold Obligations.LoopbackDelivers
  intro s inst u ps hu hq hr he ho hd hbuf ha hs hps
  have h : u.Listening := ⟨hq, hr, he, ho, hd, hbuf, ha, hs⟩
  clear hq hr he ho hd hbuf ha hs
  induction ps generalizing s u with
  | nil =>
    exact ⟨u, by rw [s.setUart_self _ u hu]; rfl, by simp, h.rxBuf, h.rxAvail, h.seqScan, by simp, rfl⟩
  | cons p ps ih =>
    obtain ⟨hp, hps⟩ := List.forall_mem_cons.1 hps
    obtain ⟨v, hrun, hv, hrxq, hin, hdiag⟩ := receive_frame hu h hp
    obtain ⟨w, hrest, hwq, hwbuf, hwa, hws, hwin, hwdiag⟩ := ih _ v (s.setUart_get _ u v hu) hps hv
    refine ⟨w, ?_, by simp [hwq, hrxq], hwbuf, hwa, hws, by simp [hwin, hin], by rw [hwdiag, hdiag]⟩
    rw [List.flatMap_cons, execMany_append _ _ _ _ hrun, hrest, State.setUart_setUart]

end Sys2Proof.Machine
end

section
/-! PROOFS. The raw UART controller: writing, reading, its agents and shutdown (43_uart_raw.md R221 to R228; 93_implementation_defined.md U1, U2). -/

namespace Sys2Proof.Machine

theorem whenBytes_yes {u : Uart} (h : u.databits = 8) (k : Out) : whenBytes u k = k := if_pos h

/-! ### Writing and reading (R221, R225) -/

section
variable (i : Nat) {u : Uart} (s : State)

theorem appendPending_free (d : List Byte) (h : u.txLock = .free) :
    appendPending i d u s = some (s.setUart i { u with txPend := u.txPend ++ d }) :=
  if_pos ((Mutex.isFree_iff _).2 h)

theorem appendPending_taken (d : List Byte) (h : u.txLock ≠ .free) : appendPending i d u s = none :=
  if_neg (mt (Mutex.isFree_iff _).1 h)

theorem drainReceived_free (h : u.rxLock = .free) :
    drainReceived i u s = some (u.rxAcc, s.setUart i { u with rxAcc := [] }) :=
  if_pos ((Mutex.isFree_iff _).2 h)

theorem drainReceived_taken (h : u.rxLock ≠ .free) : drainReceived i u s = none :=
  if_neg (mt (Mutex.isFree_iff _).1 h)

end

section
variable {s : State} {inst : Byte} {u : Uart} (hu : s.uarts[inst.toNat]? = some u) (hlc : u.lc = .running)
  (hm : u.mode = .raw) (hbits : u.databits = 8)
include hu hlc hm hbits

theorem exec_urWrite_free (hl : u.txLock = .free) (d : List Byte) :
    exec (.urWrite inst d) s =
      .next ((s.setUart inst.toNat { u with txPend := u.txPend ++ d }).answered (.ok .none)) := by
  rw [exec_urWrite hu, whenReady_yes _ _ _ _ _ hlc hm, whenBytes_yes hbits, appendPending_free _ _ _ hl]
  rfl

theorem exec_urWrite_taken (hl : u.txLock ≠ .free) (d : List Byte) :
    exec (.urWrite inst d) s = .next (s.issued (.urWrite inst.toNat d)) := by
  rw [exec_urWrite hu, whenReady_yes _ _ _ _ _ hlc hm, whenBytes_yes hbits, appendPending_taken _ _ _ hl]

theorem exec_urRead_free (hl : u.rxLock = .free) :
    exec (.urRead inst) s =
      .next ((s.setUart inst.toNat { u with rxAcc := [] }).answered (.ok (.bytes u.rxAcc))) := by
  rw [exec_urRead hu, whenReady_yes _ _ _ _ _ hlc hm, whenBytes_yes hbits, drainReceived_free _ _ hl]
  rfl

theorem exec_urRead_taken (hl : u.rxLock ≠ .free) :
    exec (.urRead inst) s = .next (s.issued (.urRead inst.toNat)) := by
  rw [exec_urRead hu, whenReady_yes _ _ _ _ _ hlc hm, whenBytes_yes hbits, drainReceived_taken _ _ hl]

end

/-- Settles O29. Each of the two operations is one indivisible action, done when its mutex is free. -/
theorem urWriteRead : Obligations.UrWriteRead := by
  unfold Obligations.UrWriteRead
  constructor
  · intro s inst d u hu
    refine ⟨fun hlc => ⟨?_, ?_⟩, decodeHost_bytes fun _ => rfl, rfl, fun hlc hm hbits =>
      ⟨fun hl => exec_urWrite_free hu hlc hm hbits hl d, fun hl => exec_urWrite_taken hu hlc hm hbits hl d,
        exec_urRead_free hu hlc hm hbits, exec_urRead_taken hu hlc hm hbits⟩⟩
    · rw [exec_urWrite hu, whenReady_no _ _ _ _ (.inl hlc)]
    · rw [exec_urRead hu, whenReady_no _ _ _ _ (.inl hlc)]
  · intro s t i b d u hu
    refine ⟨fun hop hl => ?_, fun hop hl => ?_, fun hop hl => ?_, fun hop hl => ?_⟩
    · rw [resume_urWrite b hu hop, urWriteStep, appendPending_free _ _ _ hl]
      rfl
    · rw [resume_urWrite b hu hop, urWriteStep, appendPending_taken _ _ _ hl]
    · rw [resume_urRead b hu hop, urReadStep, drainReceived_free _ _ hl]
      rfl
    · rw [resume_urRead b hu hop, urReadStep, drainReceived_taken _ _ hl]

/-! ### The agents (R223, R224) -/

theorem Uart.urTxStep_stopped (c : Config) {u : Uart} (h : u.seqUrTx = .stopped) : u.urTxStep c = u := by
  simp only [Uart.urTxStep, h]

theorem Uart.urRxStep_stopped {u : Uart} (h : u.seqUrRx = .stopped) : u.urRxStep = u := by
  simp only [Uart.urRxStep, h]

section
variable {s : State} {inst : Byte} {u : Uart} (hu : s.uarts[inst.toNat]? = some u) (hbits : u.databits = 8)
include hu hbits

/-- With eight data bits the agent takes its row, a stopped one none. -/
theorem exec_urTxStep : exec (.urTxStep inst) s = .next (s.setUart inst.toNat (u.urTxStep s.cfg)) := by
  by_cases hq : u.seqUrTx = .stopped
  · simp only [exec, execUrTxStep, hu, hq, if_true, Uart.urTxStep_stopped s.cfg hq, s.setUart_self _ u hu]
  · rw [exec_urTxStep_live hu hq, whenBytes_yes hbits]

theorem exec_urRxStep : exec (.urRxStep inst) s = .next (s.setUart inst.toNat u.urRxStep) := by
  by_cases hq : u.seqUrRx = .stopped
  · simp only [exec, execUrRxStep, hu, hq, if_true, Uart.urRxStep_stopped hq, s.setUart_self _ u hu]
  · rw [exec_urRxStep_live hu hq, whenBytes_yes hbits]

end

section
variable (c : Config) {u : Uart}

theorem Uart.urTxStep_wait_stop (hq : u.seqUrTx = .wait) (hr : u.shutReq = true) :
    u.urTxStep c = { u with seqUrTx := .stopped } := by
  simp [Uart.urTxStep, hq, hr]

theorem Uart.urTxStep_wait_drain (hq : u.seqUrTx = .wait) (hr : u.shutReq = false) (hp : u.txPend ≠ [])
    (hl : u.txLock = .free) : u.urTxStep c = { u with txBatch := u.txPend, txPend := [], seqUrTx := .drained } := by
  simp [Uart.urTxStep, hq, hr, hp, (Mutex.isFree_iff _).2 hl]

theorem Uart.urTxStep_wait_idle (hq : u.seqUrTx = .wait) (hr : u.shutReq = false)
    (h : u.txPend = [] ∨ u.txLock ≠ .free) : u.urTxStep c = u := by
  have : ¬ (!u.txPend.isEmpty && u.txLock.isFree) = true := by
    obtain h | h := h
    · simp [h]
    · simp [Mutex.isFree, h]
  simp [Uart.urTxStep, hq, hr, this]

theorem Uart.urTxStep_drained (hq : u.seqUrTx = .drained) :
    u.urTxStep c = { u with dir := .tx, seqUrTx := .writing } := by
  simp only [Uart.urTxStep, hq]

theorem Uart.urTxStep_writing (hq : u.seqUrTx = .writing) :
    u.urTxStep c = { u.txAll c u.txBatch with seqUrTx := .txOff } := by
  simp only [Uart.urTxStep, hq]

theorem Uart.urTxStep_txOff (hq : u.seqUrTx = .txOff) :
    u.urTxStep c = { u with dir := .rx, txBatch := [], seqUrTx := .wait } := by
  simp only [Uart.urTxStep, hq]

/-- No row of UR_TX writes the data bits. -/
@[simp] theorem Uart.urTxStep_databits (u : Uart) : (u.urTxStep c).databits = u.databits := by
  unfold Uart.urTxStep
  split
  · split
    · rfl
    · split <;> rfl
  · rfl
  · obtain ⟨o, a, l, h, -⟩ := Uart.txAll_spec c u.txBatch u
    rw [h]
  · rfl
  · rfl

end

/-- Settles O30. Each row is one case of `Uart.urTxStep`. -/
theorem urTxRows : Obligations.UrTxRows := by
  unfold Obligations.UrTxRows
  intro s inst u hu hbits
  have hself : s.setUart inst.toNat u = s := s.setUart_self _ u hu
  rw [exec_urTxStep hu hbits]
  refine ⟨fun hq hr => ?_, fun hq hr hp hl => ?_, fun hq hr h => ?_, fun hq => ?_, fun hq ho hd => ?_, fun hq => ?_,
    fun hq => ?_⟩
  · rw [Uart.urTxStep_wait_stop _ hq hr]
  · rw [Uart.urTxStep_wait_drain _ hq hr hp hl]
  · rw [Uart.urTxStep_wait_idle _ hq hr h, hself]
  · rw [Uart.urTxStep_drained _ hq]
  · rw [Uart.urTxStep_writing _ hq, Uart.txAll_open _ _ _ ho hd]
  · rw [Uart.urTxStep_txOff _ hq]
  · rw [Uart.urTxStep_stopped _ hq, hself]

section
variable {u : Uart}

theorem Uart.urRxStep_stop (hq : u.seqUrRx = .waitReady) (hr : u.shutReq = true) :
    u.urRxStep = { u with seqUrRx := .stopped } := by
  simp [Uart.urRxStep, hq, hr]

theorem Uart.urRxStep_idle (hq : u.seqUrRx = .waitReady) (hr : u.shutReq = false)
    (h : u.uartOpen = false ∨ u.rxAvail = []) : u.urRxStep = u := by
  have : ¬ (u.uartOpen && !u.rxAvail.isEmpty) = true := by obtain h | h := h <;> simp [h]
  simp [Uart.urRxStep, hq, hr, this]

end

/-- Settles O31. Each row is one case of `Uart.urRxStep`. -/
theorem urRxRows : Obligations.UrRxRows := by
  unfold Obligations.UrRxRows
  intro s inst u hu hbits
  have hself : s.setUart inst.toNat u = s := s.setUart_self _ u hu
  rw [exec_urRxStep hu hbits]
  refine ⟨fun hq hr => ?_, fun hq hr ho ha => ?_, fun hq hr h => ?_, fun bs hq hl => ?_, fun bs hq hl => ?_,
    fun hq => ?_⟩
  · rw [Uart.urRxStep_stop hq hr]
  · simp [Uart.urRxStep, hq, hr, ho, ha]
  · rw [Uart.urRxStep_idle hq hr h, hself]
  · simp [Uart.urRxStep, hq, (Mutex.isFree_iff _).2 hl]
  · simp [Uart.urRxStep, hq, Mutex.isFree, hl, hself]
  · rw [Uart.urRxStep_stopped hq, hself]

/-! ### A burst (R223, R228) -/

/-- Agents' steps chosen by the scheduler are their instructions. -/
theorem performMany_agents (as : List AgentStep) (s : State) :
    performMany (as.map .agent) s = execMany (as.map AgentStep.instr) s := by
  induction as generalizing s with
  | nil => rfl
  | cons a as ih =>
    simp only [List.map_cons, performMany, execMany, perform]
    split
    · exact ih _
    · rfl

/-- Rows of UR_TX one after the other. -/
theorem execMany_urTxStep {s : State} {inst : Byte} {u : Uart} (hu : s.uarts[inst.toNat]? = some u)
    (hbits : u.databits = 8) (n : Nat) :
    execMany (List.replicate n (.urTxStep inst)) s = .next (s.setUart inst.toNat ((Uart.urTxStep s.cfg)^[n] u)) := by
  induction n generalizing s u with
  | zero => simp [execMany, s.setUart_self _ u hu]
  | succ n ih =>
    rw [List.replicate_succ, execMany_cons _ _ _ _ (exec_urTxStep hu hbits),
      ih (s.setUart_get _ u _ hu) (by simpa using hbits), State.setUart_setUart]
    rfl

/-- A raw controller at rest between two bursts. -/
structure Uart.BetweenBursts (u : Uart) : Prop where
  databits : u.databits = 8
  txLock : u.txLock = .free
  txBatch : u.txBatch = []
  uartOpen : u.uartOpen = true
  dir : u.dir = .rx
  seqUrTx : u.seqUrTx = .wait
  shutReq : u.shutReq = false

theorem Uart.BetweenBursts.withPending {u : Uart} (h : u.BetweenBursts) (d : List Byte) :
    ({ u with txPend := d } : Uart).BetweenBursts :=
  ⟨h.databits, h.txLock, h.txBatch, h.uartOpen, h.dir, h.seqUrTx, h.shutReq⟩

theorem Uart.BetweenBursts.withLineOut {u : Uart} (h : u.BetweenBursts) (l : List (Byte × Dir)) :
    ({ u with lineOut := l } : Uart).BetweenBursts :=
  ⟨h.databits, h.txLock, h.txBatch, h.uartOpen, h.dir, h.seqUrTx, h.shutReq⟩

/-- Four rows of UR_TX transmit what is pending and leave the controller at rest again. -/
theorem Uart.BetweenBursts.burst {u : Uart} (h : u.BetweenBursts) {c : Config} (hecho : c.echoInTx = false) :
    (Uart.urTxStep c)^[4] u =
      { u with txPend := [], lineOut := u.lineOut ++ u.txPend.map (fun b => (b, Dir.tx)) } := by
  obtain ⟨-, hl, hbatch, ho, hd, hq, hr⟩ := h
  by_cases hp : u.txPend = []
  · have hidle : u.urTxStep c = u := Uart.urTxStep_wait_idle c hq hr (.inl hp)
    rw [Function.iterate_fixed hidle, hp, List.map_nil, List.append_nil, ← hp]
  · have htx := Uart.txAll_open c u.txPend
      { u with txBatch := u.txPend, txPend := [], dir := .tx, seqUrTx := .writing } ho rfl
    rw [hecho] at htx
    simp [Function.iterate_succ_apply, Uart.urTxStep_wait_drain c hq hr hp hl, Uart.urTxStep_drained,
      Uart.urTxStep_writing, htx, Uart.urTxStep_txOff, hbatch, hd, hq]

theorem State.setUart_answered (s : State) (i : Nat) (u : Uart) (r : Response) :
    (s.answered r).setUart i u = (s.setUart i u).answered r := rfl

section
variable {s : State} {inst : Byte} {u : Uart} (hu : s.uarts[inst.toNat]? = some u) (h : u.BetweenBursts)
  (hecho : s.cfg.echoInTx = false)
include hu h hecho

theorem execMany_burst :
    execMany (List.replicate 4 (.urTxStep inst)) s = .next (s.setUart inst.toNat
      { u with txPend := [], lineOut := u.lineOut ++ u.txPend.map (fun b => (b, Dir.tx)) }) := by
  rw [execMany_urTxStep hu h.databits, h.burst hecho]

variable (hlc : u.lc = .running) (hm : u.mode = .raw) (hp : u.txPend = [])
include hlc hm hp

/-- A write and its burst. -/
theorem execMany_write_burst (d : List Byte) :
    execMany ([.urWrite inst d] ++ List.replicate 4 (.urTxStep inst)) s =
      .next ((s.setUart inst.toNat { u with lineOut := u.lineOut ++ d.map (fun b => (b, Dir.tx)) }).answered
        (.ok .none)) := by
  have hwrite := exec_urWrite_free hu hlc hm h.databits h.txLock d
  rw [hp, List.nil_append] at hwrite
  rw [List.singleton_append, execMany_cons _ _ _ _ hwrite,
    execMany_burst (s := (s.setUart inst.toNat { u with txPend := d }).answered (.ok .none))
      (u := { u with txPend := d }) (s.setUart_get _ u _ hu) (h.withPending d) hecho, State.setUart_answered,
    State.setUart_setUart, ← hp]

/-- Two writes and one burst. -/
theorem execMany_write_write_burst (d d' : List Byte) :
    execMany ([.urWrite inst d, .urWrite inst d'] ++ List.replicate 4 (.urTxStep inst)) s =
      .next (((s.setUart inst.toNat
        { u with lineOut := u.lineOut ++ (d ++ d').map (fun b => (b, Dir.tx)) }).answered (.ok .none)).answered
          (.ok .none)) := by
  have hwrite := exec_urWrite_free hu hlc hm h.databits h.txLock d
  rw [hp, List.nil_append] at hwrite
  have hwrite' := exec_urWrite_free (s := (s.setUart inst.toNat { u with txPend := d }).answered (.ok .none))
    (u := { u with txPend := d }) (s.setUart_get _ u _ hu) hlc hm h.databits h.txLock d'
  rw [State.setUart_answered, State.setUart_setUart] at hwrite'
  rw [List.cons_append, execMany_cons _ _ _ _ hwrite, List.singleton_append, execMany_cons _ _ _ _ hwrite',
    execMany_burst
      (s := ((s.setUart inst.toNat { u with txPend := d ++ d' }).answered (.ok .none)).answered (.ok .none))
      (u := { u with txPend := d ++ d' }) (s.setUart_get _ u _ hu) (h.withPending _) hecho,
    State.setUart_answered, State.setUart_answered, State.setUart_setUart, ← hp]

end

/-- Settles O32. After either run the controller has transmitted the two writes in order; the responses do not depend on
when the bursts fall. -/
theorem writersContiguous : Obligations.WritersContiguous := by
  unfold Obligations.WritersContiguous
  intro s inst u d d' hu hlc hm hbits hl ho hd hq hr hp hbatch hecho
  have h : u.BetweenBursts := ⟨hbits, hl, hbatch, ho, hd, hq, hr⟩
  refine ⟨_, execMany_write_write_burst hu h hecho hlc hm hp d d', rfl, ?_⟩
  have hrest := execMany_write_burst
    (s := (s.setUart inst.toNat { u with lineOut := u.lineOut ++ d.map (fun b => (b, Dir.tx)) }).answered (.ok .none))
    (s.setUart_get _ u _ hu) (h.withLineOut _) hecho hlc hm hp d'
  rw [List.append_assoc ([_] ++ _), execMany_append _ _ _ _ (execMany_write_burst hu h hecho hlc hm hp d), hrest,
    State.setUart_answered, State.setUart_setUart, List.map_append, List.append_assoc]

/-! ### Shutdown (R227) -/

section
variable {s : State} {inst : Byte} {u : Uart} (hu : s.uarts[inst.toNat]? = some u)
include hu

theorem exec_urShutdown_running (hlc : u.lc = .running) (hm : u.mode = .raw)
    (hn : s.shutdownInProgress inst.toNat = false) :
    exec (.urShutdown inst) s = .next (s.working inst.toNat { u with lc := .shut } (.urShutdown inst.toNat .drain)) := by
  rw [exec_urShutdown hu, if_neg (not_overlapping (.inl hn)), whenReady_yes _ _ _ _ _ hlc hm]
  rfl

end

section
variable {s : State} {t i : Nat} {b : Bool} {u : Uart}

theorem urShutdownStep_drain (h : (u.txPend = [] ∧ u.seqUrTx = .wait) ∨ b = true) :
    urShutdownStep t i .drain b u s = .next (s.setOp t (.urShutdown i .flag)) := by
  have : ((u.txPend.isEmpty && u.seqUrTx == .wait) || b) = true := by obtain h | h := h <;> simp [h]
  rw [urShutdownStep, if_pos this]

theorem urShutdownStep_flag :
    urShutdownStep t i .flag b u s = .next ((s.setUart i { u with shutReq := true }).setOp t (.urShutdown i .join)) := rfl

theorem urShutdownStep_join (h : u.seqUrTx = .stopped ∧ u.seqUrRx = .stopped) :
    urShutdownStep t i .join b u s = .next (s.setOp t (.urShutdown i .close)) := by
  simp [urShutdownStep, h]

theorem urShutdownStep_close :
    urShutdownStep t i .close b u s =
      .next ((s.setUart i { u with uartOpen := false, dir := .released }).complete t .none) := rfl

/-- A join that times out goes on unless UR_TX is in a batch. -/
theorem urShutdownStep_join_timeout (h : u.seqUrTx = .wait ∨ u.seqUrTx = .stopped) :
    urShutdownStep t i .join true u s = .next (s.setOp t (.urShutdown i .close)) := by
  have hbatch : u.batchInProgress = false := by obtain h | h := h <;> simp [Uart.batchInProgress, h]
  simp [urShutdownStep, hbatch]

theorem urShutdownStep_join_refused (h : u.seqUrTx = .drained ∨ u.seqUrTx = .writing ∨ u.seqUrTx = .txOff) :
    urShutdownStep t i .join true u s = .refused .joinTimeoutDuringBatch := by
  have hbatch : u.batchInProgress = true := by obtain h | h | h := h <;> simp [Uart.batchInProgress, h]
  have hlive : u.seqUrTx ≠ .stopped := by obtain h | h | h := h <;> simp [h]
  simp [urShutdownStep, hbatch, hlive]

end

section
variable {s : State} {inst : Byte} {u₀ : Uart} (hu : s.uarts[inst.toNat]? = some u₀) (u : Uart) (op : HostOp)
include hu

theorem perform_urTx_working (hbits : u.databits = 8) :
    perform (.agent (.urTx inst)) (s.working inst.toNat u op) =
      .next (s.working inst.toNat (u.urTxStep s.cfg) op) := by
  rw [perform, AgentStep.instr, exec_urTxStep (State.working_get _ _ _ hu) hbits, State.working_setUart,
    State.working_cfg]

theorem perform_urRx_working (hbits : u.databits = 8) :
    perform (.agent (.urRx inst)) (s.working inst.toNat u op) = .next (s.working inst.toNat u.urRxStep op) := by
  rw [perform, AgentStep.instr, exec_urRxStep (State.working_get _ _ _ hu) hbits, State.working_setUart]

theorem performMany_burst_working (h : u.BetweenBursts) (hecho : s.cfg.echoInTx = false) :
    performMany (List.replicate 4 (.agent (.urTx inst))) (s.working inst.toNat u op) =
      .next (s.working inst.toNat
        { u with txPend := [], lineOut := u.lineOut ++ u.txPend.map (fun b => (b, Dir.tx)) } op) := by
  have hagents := performMany_agents (List.replicate 4 (.urTx inst)) (s.working inst.toNat u op)
  rw [List.map_replicate, List.map_replicate] at hagents
  rw [hagents, AgentStep.instr, execMany_burst (State.working_get _ _ _ hu) h hecho, State.working_setUart]

variable (hf : s.FreshTicket) (b : Bool)
include hf

theorem perform_resume_urShutdown (st : UrShut) :
    perform (.resume s.nextTicket b) (s.working inst.toNat u (.urShutdown inst.toNat st)) =
      urShutdownStep s.nextTicket inst.toNat st b u (s.working inst.toNat u (.urShutdown inst.toNat st)) :=
  resume_urShutdown b (State.working_get _ u _ hu) (State.findOp_working _ u _ hf)

end

/-- Stimuli performed one after the other, in two parts. -/
theorem performMany_append (as bs : List Stimulus) (s s' : State) (h : performMany as s = .next s') :
    performMany (as ++ bs) s = performMany bs s' := by
  induction as generalizing s with
  | nil =>
    cases h
    rfl
  | cons a as ih =>
    simp only [List.cons_append, performMany] at h ⊢
    split at h
    · exact ih _ h
    · next o ho => exact absurd h (ho s')

/-- Settles O33. In the run the pending bytes leave in one burst, then the flag is set, both agents stop, and the join is
over. -/
theorem urShutdownRuns : Obligations.UrShutdownRuns := by
  unfold Obligations.UrShutdownRuns
  constructor
  · intro s inst u hu hm hn
    have hword : decodeHost [0x33, inst] = .ok (.urShutdown inst) := rfl
    refine ⟨fun hlc => ?_, hword, fun hlc => exec_urShutdown_running hu hlc hm hn,
      fun hlc hf hbits hq hrx hr hl hbatch ho hd hecho => ?_⟩
    · rw [exec_urShutdown hu, if_neg (not_overlapping (.inl hn)), whenReady_no _ _ _ _ (.inl hlc)]
    · have hissue := (perform_issue hword s).trans (exec_urShutdown_running hu hlc hm hn)
      have h : ({ u with lc := .shut } : Uart).BetweenBursts := ⟨hbits, hl, hbatch, ho, hd, hq, hr⟩
      have hburst := performMany_burst_working hu { u with lc := .shut } (.urShutdown inst.toNat .drain) h hecho
      rw [List.append_assoc, List.singleton_append, performMany_cons _ _ _ _ hissue,
        performMany_append _ _ _ _ hburst]
      simp [performMany, perform_resume_urShutdown hu _ hf, perform_urTx_working hu, hbits,
        perform_urRx_working hu, urShutdownStep_drain, hq, hrx, urShutdownStep_flag, urShutdownStep_join,
        urShutdownStep_close, State.working_setOp _ _ _ _ hf, State.working_complete _ _ _ hf,
        Uart.urTxStep_wait_stop, Uart.urRxStep_stop]
  · intro s t i b u hu
    refine ⟨fun hop h => ?_, fun hop h hb => ?_, fun hop => ?_, fun hop h => ?_, fun hop h hb => ?_, fun hop => ?_⟩ <;>
      rw [resume_urShutdown b hu hop]
    · rw [urShutdownStep_drain h]
    · obtain h | h := h <;> simp [urShutdownStep, h, hb]
    · rw [urShutdownStep_flag]
    · obtain h | ⟨rfl, h⟩ := h
      · rw [urShutdownStep_join h]
      · rw [urShutdownStep_join_timeout h]
    · have : ¬ (u.seqUrTx == .stopped && u.seqUrRx == .stopped) = true := by obtain h | h := h <;> simp [h]
      rw [urShutdownStep, if_neg this, hb, if_neg Bool.false_ne_true]
    · rw [urShutdownStep_close, State.complete_eq_ended]

/-- Settles O35. Three refusals as the operation is issued, one in its join. -/
theorem meaninglessRunsRefused : Obligations.MeaninglessRunsRefused := by
  unfold Obligations.MeaninglessRunsRefused
  intro s inst u hu
  refine ⟨fun hm hlc hn hsend => ?_, fun hm hbusy => ?_, fun hm hbusy => ?_, fun t hop h => ?_⟩
  · rw [exec_ufShutdown hu, if_neg (not_overlapping (.inl hn)), whenReady_yes _ _ _ _ _ hlc hm, if_pos hsend]
  · rw [exec_ufShutdown hu, if_pos (by simp [hm, hbusy])]
  · rw [exec_urShutdown hu, if_pos (by simp [hm, hbusy])]
  · rw [resume_urShutdown true hu hop, urShutdownStep_join_refused h]

end Sys2Proof.Machine
end

section
/-! PROOFS. The SPI commands and the ready-poll (44_radio_handshake.md R241 to R259; 30_encoding.md R120 to R124). -/

namespace Sys2Proof.Machine

/-- The bytes of a property-set command, in the model's two ways of writing them. -/
theorem cmdSetProperty_eq (c : Config) (p : PropRecord) : cmdSetProperty c p = propertyBytes c p := by
  simp [cmdSetProperty, propertyBytes]

/-! ### The nine commands (R122) -/

/-- Each of the nine commands is the radio step with its bytes. -/
theorem exec_radioCommand {s : State} {i : Instr} {cmd : List Byte} {k : Nat} (h : RadioCommand s.cfg i cmd k) :
    exec i s = .next (radioStep cmd k s).2 := by
  obtain ⟨rfl, rfl, rfl⟩ | ⟨rfl, rfl, rfl⟩ | ⟨p, rfl, rfl, rfl⟩ | ⟨rfl, rfl, rfl⟩ | ⟨pkt, rfl, rfl, rfl⟩
    | ⟨ch, n, rfl, rfl, rfl⟩ | ⟨ch, rfl, rfl, rfl⟩ | ⟨rfl, rfl, rfl⟩ | ⟨rfl, rfl⟩ := h
  case inr.inr.inl => rw [← cmdSetProperty_eq]; rfl
  all_goals rfl

/-! ### The three ways a radio step can go (R247) -/

section
variable {s : State} (cmd : List Byte) (k : Nat)

theorem radioStep_held (h : s.radio.spiLock ≠ .free) : radioStep cmd k s = (.held, s) := by
  simp [radioStep, Mutex.isFree, h]

theorem radioStep_closed (hl : s.radio.spiLock = .free) (ho : s.radio.spiOpen = false) :
    radioStep cmd k s = (.closed, s.setRadio { s.radio with seqPoll := .idle, res := .closed }) := by
  simp [radioStep, Mutex.isFree, hl, ho, State.endStep]

/-- With the port open and SPILOCK free it is one block, and READY or TIMEOUT. -/
theorem radioStep_open (hl : s.radio.spiLock = .free) (ho : s.radio.spiOpen = true) :
    ∃ res t, radioStep cmd k s = (res, t) ∧ RadioStepDone cmd k s t ∧ t.radio.res = res
      ∧ ((∃ r, res = .ready r ∧ r.length = k) ∨ res = .timeout) := by
  obtain ⟨h, -⟩ | ⟨-, h, -⟩ | ⟨-, -, hdone, hres, hcases⟩ := radioStep_spec cmd k s
  · exact absurd hl h
  · exact absurd (ho.symm.trans h) (by decide)
  · exact ⟨_, _, rfl, hdone, hres.symm, hcases⟩

end

/-- Settles O36. Each command is `radioStep`, which goes one of three ways. -/
theorem radioCommands : Obligations.RadioCommands := by
  unfold Obligations.RadioCommands
  intro s i cmd k h
  rw [exec_radioCommand h]
  refine ⟨fun hl ho => ?_, fun hl ho => ?_, fun hl => ?_⟩
  · obtain ⟨res, t, ht, hdone, -⟩ := radioStep_open cmd k hl ho
    exact ⟨t, by rw [ht], hdone⟩
  · rw [radioStep_closed cmd k hl ho]
  · rw [radioStep_held cmd k hl]

/-! ### The ready-poll along a tape (R246) -/

/-- Status reads that are not ready are made and discarded, as many as time allows; the first ready one ends the poll. -/
theorem pollLoop_notReady {notReady : List (List Byte)} {resp rest : List Byte} {n : Nat} {s : State}
    (hnot : ∀ r ∈ notReady, r.length = 1 + resp.length ∧ r.head? ≠ some s.cfg.ctsReady)
    (htape : s.spiIn = notReady.flatten ++ s.cfg.ctsReady :: (resp ++ rest)) (hn : notReady.length ≤ n) :
    pollLoop resp.length n s = (some resp, { s with
      radio := { s.radio with
        spiLog := s.radio.spiLog
          ++ (notReady ++ [s.cfg.ctsReady :: resp]).map (fun r => (s.cfg.opcReadStatus.bytes, r))
        seqPoll := .ready }
      spiIn := rest }) := by
  induction notReady generalizing n s with
  | nil => exact pollLoop_ready n resp rest s htape
  | cons r notReady ih =>
    obtain ⟨⟨hlen, hhead⟩, hnot'⟩ := List.forall_mem_cons.1 hnot
    obtain ⟨n, rfl⟩ := Nat.exists_eq_add_of_lt (show 0 < n by simp at hn; omega)
    obtain ⟨r0, r, rfl⟩ := List.exists_cons_of_length_pos (show 0 < r.length by omega)
    have hr : r.length = resp.length := by
      rw [List.length_cons] at hlen
      omega
    have hr0 : r0 ≠ s.cfg.ctsReady := by simpa using hhead
    have htape' : s.spiIn = r0 :: (r ++ (notReady.flatten ++ s.cfg.ctsReady :: (resp ++ rest))) := by
      simpa using htape
    have hread := readStatus_tape r0 r _ s htape'
    rw [hr, if_neg hr0, if_neg hr0] at hread
    have hrest := ih (n := 0 + n) (s := (readStatus resp.length s).2) (by rw [hread]; exact hnot') (by rw [hread])
      (by simpa using hn)
    simp only [pollLoop, hread] at hrest ⊢
    rw [hrest]
    simp

/-- Settles O37. The poll takes its limit from the tape and ends at the first ready read. -/
theorem pollEndsAtFirstReady : Obligations.PollEndsAtFirstReady := by
  unfold Obligations.PollEndsAtFirstReady
  intro s i cmd k notReady resp rest limit limits hcmd hl ho hnot hk htape hlimit hn
  subst hk
  have hloop := pollLoop_notReady (n := limit)
    (s := { (spiXfer cmd 0 s).2.setPoll .polling with pollLimits := limits }) hnot htape hn
  have hpoll : poll resp.length (spiXfer cmd 0 s).2
      = pollLoop resp.length limit { (spiXfer cmd 0 s).2.setPoll .polling with pollLimits := limits } := by
    simp [poll, State.drawLimit, spiXfer_zero, hlimit]
  rw [exec_radioCommand hcmd, radioStep, hpoll, hloop]
  simp [hl, ho, Mutex.isFree, State.endStep, State.setRadio, State.setPoll, spiXfer_zero, stepLog]

/-! ### The status read standing alone (R251) -/

/-- The first byte of an answer is the next one on the tape. -/
theorem spiXfer_head {out : List Byte} {n : Nat} {s : State} {b : Byte} {bs : List Byte} (h : s.spiIn = b :: bs) :
    (spiXfer out (1 + n) s).1.head? = some b := by
  simp [spiXfer, Nat.add_comm 1 n, State.drawBytes, State.drawByte, h]

theorem readStatus_of_spiXfer {k : Nat} {s s' : State} {r0 : Byte} {resp : List Byte}
    (hx : spiXfer (cmdReadStatus s.cfg) (1 + k) s = (r0 :: resp, s')) :
    readStatus k s =
      if r0 = s'.cfg.ctsReady then (some resp, s'.setPoll .ready) else (none, s'.setPoll .polling) := by
  rw [readStatus, hx]

end Sys2Proof.Machine

namespace Sys2Proof.Settled

open Sys2Proof.Machine

/-- Settles O38. The three cases are those of R241: an open port with SPILOCK free, a closed one, SPILOCK taken. -/
theorem readStatus : Obligations.ReadStatus := by
  unfold Obligations.ReadStatus
  intro s k
  refine ⟨fun hl ho => ?_, fun hl ho => ?_, fun hl => ?_⟩
  · obtain ⟨r, l, d, hr, hx⟩ := spiXfer_spec (cmdReadStatus s.cfg) (1 + k) s
    obtain ⟨r0, resp, rfl⟩ := List.exists_cons_of_length_pos (show 0 < r.length by omega)
    have hlen : resp.length = k := by
      rw [List.length_cons] at hr
      omega
    refine ⟨r0, resp, _, hlen, rfl, ?_, fun b bs hs => ?_⟩
    · by_cases hc : r0 = s.cfg.ctsReady <;>
        simp [rcReadStatus, readStatus_of_spiXfer hx, hl, ho, Mutex.isFree, hc, State.setPoll, State.setRadio,
          cmdReadStatus]
    · have hhead := spiXfer_head (out := cmdReadStatus s.cfg) (n := k) hs
      rw [hx] at hhead
      simpa using hhead
  · simp [exec, execRcReadStatus, rcReadStatus, Mutex.isFree, hl, ho]
  · simp [exec, execRcReadStatus, rcReadStatus, Mutex.isFree, hl]

end Sys2Proof.Settled
end

section
/-! PROOFS. The construction of the radio controller: its rows and its whole run (44_radio_handshake.md R260 to R272). -/

namespace Sys2Proof.Machine

/-! ### The rows of SEQ_CONS -/

section
variable {s : State} {t : Nat} {ch : Word16} {props : List PropRecord}

/-- The check of S1: the channel, then the count (R271, R262). -/
theorem checkRadioConfig_eq :
    checkRadioConfig ch props =
      if 255 < ch.toNat then .error .channel
      else if props.length ≠ 31 then .error (.properties props.length)
      else .ok (ch.setWidth 8) := rfl

theorem consStep_parse_ok (hq : s.radio.seqCons = .s1Parse) {c : Byte} (hc : checkRadioConfig ch props = .ok c) :
    consStep t ch props s = s.setRadio (s.radio.configure s.cfg c props) := by
  simp only [consStep, hq, hc]

theorem consStep_parse_error (hq : s.radio.seqCons = .s1Parse) {f : ConfigField}
    (hc : checkRadioConfig ch props = .error f) :
    consStep t ch props s = (s.setRadio s.radio.undoGuard).ended t (.error (.config f)) := by
  simp only [consStep, hq, hc, State.abort_eq_ended]

theorem consStep_assert (hq : s.radio.seqCons = .s2Reset .assert) :
    consStep t ch props s =
      s.setRadio { s.radio with spiOpen := true, rst := .asserted, seqCons := .s2Reset .hold } := by
  simp only [consStep, hq]

theorem consStep_hold (hq : s.radio.seqCons = .s2Reset .hold) :
    consStep t ch props s = s.setRadio { s.radio with seqCons := .s2Reset .release } := by
  simp only [consStep, hq, State.setCons]

theorem consStep_release (hq : s.radio.seqCons = .s2Reset .release) :
    consStep t ch props s = s.setRadio { s.radio with rst := .deasserted, seqCons := .s2Reset .settle } := by
  simp only [consStep, hq]

theorem consStep_settle (hq : s.radio.seqCons = .s2Reset .settle) :
    consStep t ch props s = s.setRadio { s.radio with seqCons := .s3PowerUp } := by
  simp only [consStep, hq, State.setCons]

theorem consStep_irq (hq : s.radio.seqCons = .s7Irq) :
    consStep t ch props s = s.setRadio { s.radio with irqPend := 0, irqEn := true, seqCons := .s8Rx } := by
  simp only [consStep, hq]

theorem consStep_start (hq : s.radio.seqCons = .s9Start) :
    consStep t ch props s =
      (s.setRadio { s.radio with seqRdTx := .wait, lc := .running, seqCons := .done }).ended t (.ok .none) := by
  simp only [consStep, hq, State.complete_eq_ended]

/-- A row that issues a command is one radio step, and what follows it. -/
theorem consStep_command {cmd : List Byte} {st : HandshakeStep} {next : ConsSeq}
    (h : consRow s = some (cmd, st, next)) :
    consStep t ch props s = consAfter t st next s (radioStep cmd 0 s) := by
  have hprops (i : Nat) : i + 1 < nProps ↔ i < 30 := by rw [nProps]; omega
  unfold consRow at h
  split at h
  case h_1 hq => cases h; simp only [consStep, hq]; rfl
  case h_2 hq => cases h; simp only [consStep, hq]; rfl
  case h_3 i hq =>
    split at h
    · next p hp => cases h; simp only [consStep, hq, hp, hprops, ← cmdSetProperty_eq]; rfl
    · contradiction
  case h_4 i hq =>
    split at h
    · next p hp => cases h; simp only [consStep, hq, hp, ← cmdSetProperty_eq]; rfl
    · contradiction
  case h_5 hq => cases h; simp only [consStep, hq]; rfl
  all_goals contradiction

/-- A construction step that is READY goes on to the next row. -/
theorem consAfter_ready {st : HandshakeStep} {next : ConsSeq} {s1 : State} {resp : List Byte} :
    consAfter t st next s (.ready resp, s1) = s1.setRadio { s1.radio with seqCons := next } := rfl

/-- One that runs out of time, or finds the port closed, is fatal (log entry 28). -/
theorem consAfter_fail {st : HandshakeStep} {next : ConsSeq} {s1 : State} {res : StepRes}
    (h : res = .timeout ∨ res = .closed) :
    ∃ rst spiOpen, consAfter t st next s (res, s1) = { s1 with
      radio := { s1.radio with
        irqEn := false, lc := .failed, seqCons := .failed, rst := rst, spiOpen := spiOpen }
      ops := s1.ops.filter (fun e => e.1 != t)
      responses := s1.responses ++ [(t, .error (.handshake st))]
      draws := s1.draws + 1 } := by
  obtain rfl | rfl := h <;> exact ⟨_, _, rfl⟩

end

/-- Settles O40. The rows of S1. -/
theorem rdConstructParse : Obligations.RdConstructParse := by
  unfold Obligations.RdConstructParse
  intro s t b ch props hop hq
  rw [resume_rdConstruct b hop]
  refine ⟨fun hch => ?_, fun hch hn => ?_, fun hch hn => ?_⟩
  · rw [consStep_parse_error hq (checkRadioConfig_eq.trans (if_pos hch))]
    rfl
  · rw [consStep_parse_error hq (checkRadioConfig_eq.trans (by rw [if_neg (by omega), if_pos hn]))]
    rfl
  · rw [consStep_parse_ok hq (checkRadioConfig_eq.trans (by rw [if_neg (by omega), if_neg (not_not.2 hn)]))]
    rfl

/-! ### The whole run along a tape of ready answers -/

/-- `op` has been issued on `s`, the radio has become `r`, and what is left of the environment's answers is given. -/
def State.onTape (s : State) (op : HostOp) (r : Radio) (tape : List Byte) (l : List Nat) (d : Nat) : State :=
  { s.workingRadio r op with spiIn := tape, pollLimits := l, draws := d }

section
variable {s : State} {op : HostOp} {tape : List Byte} {l : List Nat} {d : Nat} {r : Radio}

@[simp] theorem State.onTape_cfg : (s.onTape op r tape l d).cfg = s.cfg := rfl
@[simp] theorem State.onTape_radio : (s.onTape op r tape l d).radio = r := rfl
@[simp] theorem State.onTape_setRadio (r' : Radio) :
    (s.onTape op r tape l d).setRadio r' = s.onTape op r' tape l d := rfl

theorem State.findOp_onTape (hf : s.FreshTicket) : (s.onTape op r tape l d).findOp s.nextTicket = some op :=
  s.findOp_workingRadio r op hf

theorem State.onTape_ended (hf : s.FreshTicket) (x : Response) :
    (s.onTape op r tape l d).ended s.nextTicket x =
      { (s.setRadio r).answered x with spiIn := tape, pollLimits := l, draws := d } := by
  exact congrArg (fun t : State => { t with spiIn := tape, pollLimits := l, draws := d })
    (State.ended_issued (s.setRadio r) op x hf)

end

section
variable {s : State} {ch : Word16} {props : List PropRecord} (hf : s.FreshTicket) (b : Bool)
  {rest : List Byte} {l : List Nat} {d : Nat} {r : Radio}
include hf

theorem resume_onTape {tape : List Byte} :
    resume s.nextTicket b (s.onTape (.rdConstruct ch props) r tape l d) =
      .next (consStep s.nextTicket ch props (s.onTape (.rdConstruct ch props) r tape l d)) :=
  resume_rdConstruct b (State.findOp_onTape hf)

/-- A row that issues no command leaves the tape. -/
theorem resume_quiet {tape : List Byte} {r' : Radio}
    (h : consStep s.nextTicket ch props (s.onTape (.rdConstruct ch props) r tape l d)
      = s.onTape (.rdConstruct ch props) r' tape l d) :
    resume s.nextTicket b (s.onTape (.rdConstruct ch props) r tape l d) =
      .next (s.onTape (.rdConstruct ch props) r' tape l d) :=
  (resume_onTape hf b).trans (congrArg _ h)

/-- The rows S1 and S2. -/
theorem resumeMany_before_commands (tape : List Byte) (hq : r.seqCons = .s1Parse) (hch : ch.toNat ≤ 255)
    (hprops : props.length = 31) :
    resumeMany 5 s.nextTicket b (s.onTape (.rdConstruct ch props) r tape l d) =
      .next (s.onTape (.rdConstruct ch props)
        { r.configure s.cfg (ch.setWidth 8) props with
          spiOpen := true, rst := .deasserted, seqCons := .s3PowerUp } tape l d) := by
  have hparse : checkRadioConfig ch props = .ok (ch.setWidth 8) :=
    checkRadioConfig_eq.trans (by rw [if_neg (by omega), if_neg (not_not.2 hprops)])
  refine (resumeMany_succ 4 _ _ _ _ (resume_quiet hf b (consStep_parse_ok hq hparse))).trans ?_
  refine (resumeMany_succ 3 _ _ _ _ (resume_quiet hf b (consStep_assert (by rfl)))).trans ?_
  refine (resumeMany_succ 2 _ _ _ _ (resume_quiet hf b (consStep_hold (by rfl)))).trans ?_
  refine (resumeMany_succ 1 _ _ _ _ (resume_quiet hf b (consStep_release (by rfl)))).trans ?_
  exact resumeMany_succ 0 _ _ _ _ (resume_quiet hf b (consStep_settle (by rfl)))

variable (hl : r.spiLock = .free) (ho : r.spiOpen = true)
include hl ho

/-- A command row whose first status read is ready. -/
theorem resume_command_ready {cmd : List Byte} {st : HandshakeStep} {next : ConsSeq}
    (h : consRow (s.onTape (.rdConstruct ch props) r (s.cfg.ctsReady :: rest) l d) = some (cmd, st, next)) :
    ∃ l' d', resume s.nextTicket b (s.onTape (.rdConstruct ch props) r (s.cfg.ctsReady :: rest) l d) =
      .next (s.onTape (.rdConstruct ch props)
        { r with spiLog := r.spiLog ++ readyLog s.cfg cmd [], seqPoll := .idle, res := .ready [], seqCons := next }
        rest l' d') := by
  obtain ⟨l', d', hstep⟩ := radioStep_ready cmd [] rest
    (s.onTape (.rdConstruct ch props) r (s.cfg.ctsReady :: rest) l d) hl ho rfl
  refine ⟨l', d', ?_⟩
  rw [resume_onTape hf, consStep_command h]
  exact congrArg _ ((congrArg _ hstep).trans consAfter_ready)

/-- The rows that set the records of a list one after the other: `row j` sends record `j`, and after the last comes
`fin`. -/
theorem resumeMany_records {records : List PropRecord} {row : Nat → ConsSeq} {fin : ConsSeq}
    (hrow : ∀ (x : State) (j : Nat) (p : PropRecord), x.cfg = s.cfg → x.radio.props = r.props →
      x.radio.seqCons = row j → records[j]? = some p →
      ∃ st, consRow x = some (propertyBytes s.cfg p, st, if j + 1 < records.length then row (j + 1) else fin))
    {pre : List PropRecord} {p : PropRecord} {post : List PropRecord} (hsplit : records = pre ++ p :: post)
    (hq : r.seqCons = row pre.length) :
    ∃ l' d', resumeMany (post.length + 1) s.nextTicket b
        (s.onTape (.rdConstruct ch props) r (List.replicate (post.length + 1) s.cfg.ctsReady ++ rest) l d) =
      .next (s.onTape (.rdConstruct ch props)
        { r with
          spiLog := r.spiLog ++ (p :: post).flatMap (fun p => readyLog s.cfg (propertyBytes s.cfg p) [])
          seqPoll := .idle, res := .ready [], seqCons := fin }
        rest l' d') := by
  induction post generalizing pre p r l d with
  | nil =>
    obtain ⟨st, hcons⟩ := hrow (s.onTape (.rdConstruct ch props) r (s.cfg.ctsReady :: rest) l d) pre.length p rfl rfl hq
      (by simp [hsplit])
    rw [if_neg (by simp [hsplit])] at hcons
    obtain ⟨l', d', h⟩ := resume_command_ready hf b hl ho hcons
    exact ⟨l', d', by simpa [resumeMany] using resumeMany_succ 0 _ _ _ _ h⟩
  | cons p' post ih =>
    obtain ⟨st, hcons⟩ := hrow (s.onTape (.rdConstruct ch props) r
      (s.cfg.ctsReady :: (List.replicate (post.length + 1) s.cfg.ctsReady ++ rest)) l d) pre.length p rfl rfl hq
      (by simp [hsplit])
    rw [if_pos (by simp [hsplit])] at hcons
    obtain ⟨l₁, d₁, h₁⟩ := resume_command_ready hf b hl ho hcons
    obtain ⟨l', d', h⟩ := ih (pre := pre ++ [p]) (p := p') (l := l₁) (d := d₁)
      (r := { r with
        spiLog := r.spiLog ++ readyLog s.cfg (propertyBytes s.cfg p) [], seqPoll := .idle, res := .ready []
        seqCons := row (pre.length + 1) }) hl ho hrow (by simp [hsplit]) (by simp)
    refine ⟨l', d', ?_⟩
    rw [List.length_cons, List.replicate_succ, List.cons_append, resumeMany_succ _ _ _ _ _ h₁, h]
    simp

/-- The rows S3 to S6: power-up, GPIO, the properties and the overrides. -/
theorem resumeMany_commands (hq : r.seqCons = .s3PowerUp) (hprops : r.props.length = 31) :
    ∃ l' d', resumeMany (31 + s.cfg.intOverrides.length + 1 + 1) s.nextTicket b
        (s.onTape (.rdConstruct ch props) r
          (s.cfg.ctsReady :: s.cfg.ctsReady :: (List.replicate 31 s.cfg.ctsReady
            ++ (List.replicate s.cfg.intOverrides.length s.cfg.ctsReady ++ rest))) l d) =
      .next (s.onTape (.rdConstruct ch props)
        { r with
          spiLog := r.spiLog ++ readyLog s.cfg (s.cfg.opcPowerUp.bytes ++ s.cfg.argsPowerUp) []
            ++ readyLog s.cfg (s.cfg.opcGpioCfg.bytes ++ s.cfg.argsGpioCfg) []
            ++ r.props.flatMap (fun p => readyLog s.cfg (propertyBytes s.cfg p) [])
            ++ s.cfg.intOverrides.flatMap (fun p => readyLog s.cfg (propertyBytes s.cfg p) [])
          seqPoll := .idle, res := .ready [], seqCons := .s7Irq }
        rest l' d') := by
  obtain ⟨p, ps, hps⟩ := List.exists_cons_of_length_pos (show 0 < r.props.length by omega)
  have hlen : 31 = ps.length + 1 := by rw [← hprops, hps, List.length_cons]
  have hpropRow (x : State) (j : Nat) (p : PropRecord) (hc : x.cfg = s.cfg) (hx : x.radio.props = r.props)
      (hxq : x.radio.seqCons = .s5Prop j) (hp : r.props[j]? = some p) : ∃ st, consRow x = some
        (propertyBytes s.cfg p, st, if j + 1 < r.props.length then .s5Prop (j + 1) else .s6Int 0) := by
    have hj : j < 30 ↔ j + 1 < r.props.length := by omega
    exact ⟨_, by simp only [consRow, hxq, hx, hp, hc, hj]; rfl⟩
  have hintRow (x : State) (j : Nat) (p : PropRecord) (hc : x.cfg = s.cfg) (hx : x.radio.props = r.props)
      (hxq : x.radio.seqCons = .s6Int j) (hp : s.cfg.intOverrides[j]? = some p) : ∃ st, consRow x = some
        (propertyBytes s.cfg p, st, if j + 1 < s.cfg.intOverrides.length then .s6Int (j + 1) else .s7Irq) :=
    ⟨_, by simp only [consRow, hxq, hp, hc]; rfl⟩
  have hpowerRow (tape : List Byte) : consRow (s.onTape (.rdConstruct ch props) r tape l d) =
      some (s.cfg.opcPowerUp.bytes ++ s.cfg.argsPowerUp, .powerUp, .s4Gpio) := by
    simp only [consRow, State.onTape_radio, hq, State.onTape_cfg]
  obtain ⟨l₁, d₁, hpower⟩ := resume_command_ready (ch := ch) (props := props) (r := r) (l := l) (d := d)
    (rest := s.cfg.ctsReady :: (List.replicate 31 s.cfg.ctsReady
      ++ (List.replicate s.cfg.intOverrides.length s.cfg.ctsReady ++ rest))) hf b hl ho (hpowerRow _)
  obtain ⟨l₂, d₂, hgpio⟩ := resume_command_ready (ch := ch) (props := props) (l := l₁) (d := d₁)
    (r := { r with
      spiLog := r.spiLog ++ readyLog s.cfg (s.cfg.opcPowerUp.bytes ++ s.cfg.argsPowerUp) []
      seqPoll := .idle, res := .ready [], seqCons := .s4Gpio })
    (rest := List.replicate 31 s.cfg.ctsReady
      ++ (List.replicate s.cfg.intOverrides.length s.cfg.ctsReady ++ rest)) hf b hl ho rfl
  obtain ⟨l₃, d₃, hprop⟩ := resumeMany_records (ch := ch) (props := props) (l := l₂) (d := d₂)
    (r := { r with
      spiLog := r.spiLog ++ readyLog s.cfg (s.cfg.opcPowerUp.bytes ++ s.cfg.argsPowerUp) []
        ++ readyLog s.cfg (s.cfg.opcGpioCfg.bytes ++ s.cfg.argsGpioCfg) []
      seqPoll := .idle, res := .ready [], seqCons := .s5Prop 0 })
    (rest := List.replicate s.cfg.intOverrides.length s.cfg.ctsReady ++ rest) hf b hl ho hpropRow (pre := []) hps rfl
  obtain ⟨l₄, d₄, hint⟩ := resumeMany_records (ch := ch) (props := props) (l := l₃) (d := d₃)
    (r := { r with
      spiLog := r.spiLog ++ readyLog s.cfg (s.cfg.opcPowerUp.bytes ++ s.cfg.argsPowerUp) []
        ++ readyLog s.cfg (s.cfg.opcGpioCfg.bytes ++ s.cfg.argsGpioCfg) []
        ++ r.props.flatMap (fun p => readyLog s.cfg (propertyBytes s.cfg p) [])
      seqPoll := .idle, res := .ready [], seqCons := .s6Int 0 })
    (rest := rest) hf b hl ho hintRow (pre := []) (p := s.cfg.intOverride) (post := s.cfg.intOverrideMore) rfl rfl
  refine ⟨l₄, d₄, ?_⟩
  rw [← hlen, ← hps] at hprop
  refine (resumeMany_succ _ _ _ _ _ hpower).trans ?_
  refine (resumeMany_succ _ _ _ _ _ hgpio).trans ?_
  exact (resumeMany_add 31 _ _ _ _ _ hprop).trans hint

/-- The rows S7, S8 and S9: IRQ_EN is set, the receiver is started, and the operation ends. -/
theorem resumeMany_after_commands (hq : r.seqCons = .s7Irq) :
    ∃ l' d', resumeMany 3 s.nextTicket b
        (s.onTape (.rdConstruct ch props) r (s.cfg.ctsReady :: rest) l d) =
      .next { (s.setRadio { r with
          irqPend := 0, irqEn := true
          spiLog := r.spiLog ++ readyLog s.cfg (s.cfg.opcStartRx.bytes ++ Config.argsStartRx r.channel) []
          seqPoll := .idle, res := .ready [], seqRdTx := .wait, lc := .running, seqCons := .done }).answered
            (.ok .none) with spiIn := rest, pollLimits := l', draws := d' } := by
  obtain ⟨l', d', hrx⟩ := resume_command_ready (ch := ch) (props := props) (l := l) (d := d) (rest := rest)
    (r := { r with irqPend := 0, irqEn := true, seqCons := .s8Rx }) hf b hl ho rfl
  refine ⟨l', d', ?_⟩
  refine (resumeMany_succ 2 _ _ _ _ (resume_quiet hf b (consStep_irq hq))).trans ?_
  refine (resumeMany_succ 1 _ _ _ _ hrx).trans ?_
  refine (resumeMany_succ 0 _ _ _ _ (resume_onTape hf b)).trans ?_
  rw [consStep_start (by rfl), State.onTape_setRadio, State.onTape_ended hf]
  rfl

end

/-- Settles O41. The rows S1 and S2, then the commands of S3 to S6, then S7 to S9. -/
theorem rdConstructRuns : Obligations.RdConstructRuns := by
  unfold Obligations.RdConstructRuns
  intro s ch props rest m halloc hlock hf hch hprops htape
  have hsplit : s.spiIn = s.cfg.ctsReady :: s.cfg.ctsReady :: (List.replicate 31 s.cfg.ctsReady
      ++ (List.replicate m s.cfg.ctsReady ++ s.cfg.ctsReady :: rest)) := by
    rw [htape, show 34 + m = 2 + (31 + (m + 1)) by omega, List.replicate_add, List.replicate_add, List.replicate_add]
    simp only [List.append_assoc]
    rfl
  have hrows : 41 + m = 5 + ((31 + m + 1 + 1) + 3) := by omega
  have hissue : exec (.rdConstruct ch props) s = .next (s.onTape (.rdConstruct ch props) s.radio.takeGuard
      (s.cfg.ctsReady :: s.cfg.ctsReady :: (List.replicate 31 s.cfg.ctsReady
        ++ (List.replicate m s.cfg.ctsReady ++ s.cfg.ctsReady :: rest))) s.pollLimits s.draws) := by
    rw [exec_rdConstruct_free ch props halloc, ← hsplit]
    rfl
  obtain ⟨l₁, d₁, hcommands⟩ := resumeMany_commands (ch := ch) (props := props) (l := s.pollLimits) (d := s.draws)
    (r := { s.radio.takeGuard.configure s.cfg (ch.setWidth 8) props with
      spiOpen := true, rst := .deasserted, seqCons := .s3PowerUp }) (rest := s.cfg.ctsReady :: rest)
    hf false hlock rfl rfl hprops
  obtain ⟨l₂, d₂, hend⟩ := resumeMany_after_commands (ch := ch) (props := props) (l := l₁) (d := d₁)
    (r := { s.radio.takeGuard.configure s.cfg (ch.setWidth 8) props with
      spiOpen := true, rst := .deasserted
      spiLog := s.radio.spiLog ++ readyLog s.cfg (s.cfg.opcPowerUp.bytes ++ s.cfg.argsPowerUp) []
        ++ readyLog s.cfg (s.cfg.opcGpioCfg.bytes ++ s.cfg.argsGpioCfg) []
        ++ props.flatMap (fun p => readyLog s.cfg (propertyBytes s.cfg p) [])
        ++ s.cfg.intOverrides.flatMap (fun p => readyLog s.cfg (propertyBytes s.cfg p) [])
      seqPoll := .idle, res := .ready [], seqCons := .s7Irq }) (rest := rest)
    hf false hlock rfl rfl
  rw [hrows]
  have hrun := (resumeMany_add 5 (31 + m + 1 + 1 + 3) _ _ _ _
    (resumeMany_before_commands hf false _ rfl hch hprops)).trans ((resumeMany_add _ 3 _ _ _ _ hcommands).trans hend)
  refine ⟨_, _, hissue, hrun, ?_⟩
  simp [State.answered, State.setRadio, Radio.configure, Radio.takeGuard_eq, constructionCommands, List.flatMap_map]

end Sys2Proof.Machine
end

section
/-! PROOFS. The host operations of the radio at run time and the edge detector (45_radio_txrx.md R280, R286, R290, R291). -/

namespace Sys2Proof

/-- `LIST BYTES` is read back from its encoding: the count, then each item. -/
theorem decodeHost_rdTransmit {ps : List (List Byte)} (hlen : ps.length < 65536) (hps : ∀ p ∈ ps, p.length < 65536) :
    decodeHost (0x41 :: 0x00 :: BitVec.ofNat 8 (ps.length / 256) :: BitVec.ofNat 8 ps.length
      :: ps.flatMap Machine.bytesOperand) = .ok (.rdTransmit ps) := by
  have hmany := takeMany_bytesOperand ps [] hps
  rw [List.append_nil] at hmany
  have hlist : takeList takeBytes (BitVec.ofNat 8 (ps.length / 256) :: BitVec.ofNat 8 ps.length
      :: ps.flatMap Machine.bytesOperand) = .ok (ps, []) := by
    simp only [takeList, takeU16, word16_count _ hlen, hmany]
  have hop : decodeOperands 0x41 0x00 (BitVec.ofNat 8 (ps.length / 256) :: BitVec.ofNat 8 ps.length
      :: ps.flatMap Machine.bytesOperand) = field .rdTransmit (takeList takeBytes (BitVec.ofNat 8 (ps.length / 256)
      :: BitVec.ofNat 8 ps.length :: ps.flatMap Machine.bytesOperand)) := rfl
  simp only [decodeHost, decodePrefix, hop, hlist, field]

namespace Machine

/-! ### RD.TRANSMIT (R280) -/

theorem packetFits_iff (p : List Byte) : packetFits p = true ↔ 0 < p.length ∧ p.length ≤ 64 := by
  simp [packetFits, pktMin, pktMax, Nat.succ_le_iff]

theorem firstBadPacket_of_all {ps : List (List Byte)} (h : ∀ p ∈ ps, 0 < p.length ∧ p.length ≤ 64) (i : Nat) :
    firstBadPacket i ps = none := by
  induction ps generalizing i with
  | nil => rfl
  | cons p ps ih =>
    obtain ⟨hp, hps⟩ := List.forall_mem_cons.1 h
    rw [firstBadPacket, if_pos ((packetFits_iff p).2 hp), ih hps]

theorem firstBadPacket_of_bad {pre post : List (List Byte)} {p : List Byte}
    (hpre : ∀ q ∈ pre, 0 < q.length ∧ q.length ≤ 64) (hp : ¬ (0 < p.length ∧ p.length ≤ 64)) (i : Nat) :
    firstBadPacket i (pre ++ p :: post) = some (i + pre.length, p.length) := by
  induction pre generalizing i with
  | nil => exact if_neg (mt (packetFits_iff p).1 hp)
  | cons q pre ih =>
    obtain ⟨hq, hpre'⟩ := List.forall_mem_cons.1 hpre
    rw [List.cons_append, firstBadPacket, if_pos ((packetFits_iff q).2 hq), ih hpre', List.length_cons,
      Nat.add_assoc, Nat.add_comm 1]

theorem forall_of_firstBadPacket {ps : List (List Byte)} {i : Nat} (h : firstBadPacket i ps = none) :
    ∀ p ∈ ps, 1 ≤ p.length ∧ p.length ≤ 64 := by
  induction ps generalizing i with
  | nil => simp
  | cons p ps ih =>
    rw [firstBadPacket] at h
    split at h
    · next hp => exact List.forall_mem_cons.2 ⟨(packetFits_iff p).1 hp, ih h⟩
    · contradiction

section
variable {s : State}

theorem appendPackets_free (ps : List (List Byte)) (h : s.radio.txqLock = .free) :
    appendPackets ps s = some (s.setRadio { s.radio with txq := s.radio.txq ++ ps }) := by
  simp [appendPackets, Mutex.isFree, h]

theorem appendPackets_taken (ps : List (List Byte)) (h : s.radio.txqLock ≠ .free) : appendPackets ps s = none := by
  simp [appendPackets, Mutex.isFree, h]

theorem exec_rdTransmit_state (ps : List (List Byte)) (h : s.radio.lc ≠ .running) :
    exec (.rdTransmit ps) s = .next (s.answered (.error (.state s.radio.lc))) :=
  whenRadioRunning_no s _ h

theorem exec_rdTransmit_bad {ps : List (List Byte)} {i n : Nat} (h : s.radio.lc = .running)
    (hbad : firstBadPacket 0 ps = some (i, n)) :
    exec (.rdTransmit ps) s = .next (s.answered (.error (.size i n))) := by
  simp only [exec, execRdTransmit, hbad, whenRadioRunning_yes _ s.accept _ h, State.raise_accept s _ _ rfl]

theorem exec_rdTransmit_good {ps : List (List Byte)} (h : s.radio.lc = .running)
    (hgood : firstBadPacket 0 ps = none) :
    exec (.rdTransmit ps) s = .next (if s.radio.txqLock = .free then
      (s.setRadio { s.radio with txq := s.radio.txq ++ ps }).answered (.ok .none) else s.issued (.rdTransmit ps)) := by
  simp only [exec, execRdTransmit, hgood, whenRadioRunning_yes _ s.accept _ h]
  split_ifs with hl
  · rw [appendPackets_free (s := s.accept) ps hl]; rfl
  · rw [appendPackets_taken (s := s.accept) ps hl]; rfl

/-- A waiting `RD.TRANSMIT` looks again. -/
theorem rdTransmitStep_eq (t : Nat) (ps : List (List Byte)) :
    rdTransmitStep t ps s = if s.radio.txqLock = .free then
      (s.setRadio { s.radio with txq := s.radio.txq ++ ps }).ended t (.ok .none) else s := by
  unfold rdTransmitStep
  split_ifs with hl
  · rw [appendPackets_free ps hl]; rfl
  · rw [appendPackets_taken ps hl]

end

/-- Settles O44. -/
theorem rdTransmit : Obligations.RdTransmit := by
  unfold Obligations.RdTransmit
  refine ⟨fun s ps => ⟨exec_rdTransmit_state ps, fun pre p post hlc hps hpre hp => ?_, fun hlc hps hl => ?_,
    fun hlc hps hl => ?_, decodeHost_rdTransmit⟩, fun s t b ps hop => ⟨fun hl => ?_, fun hl => ?_⟩⟩
  · rw [hps, exec_rdTransmit_bad hlc (firstBadPacket_of_bad hpre hp 0), Nat.zero_add]
  · rw [exec_rdTransmit_good hlc (firstBadPacket_of_all hps 0), if_pos hl]
  · rw [exec_rdTransmit_good hlc (firstBadPacket_of_all hps 0), if_neg hl]
  · rw [resume_rdTransmit b hop, rdTransmitStep_eq, if_pos hl]
  · rw [resume_rdTransmit b hop, rdTransmitStep_eq, if_neg hl]

/-! ### RD.RECEIVE (R290) -/

section
variable {s : State}

theorem drainPackets_free (h : s.radio.rxlLock = .free) :
    drainPackets s = some (s.radio.rxList, s.setRadio { s.radio with rxList := [] }) := by
  simp [drainPackets, Mutex.isFree, h]

theorem drainPackets_taken (h : s.radio.rxlLock ≠ .free) : drainPackets s = none := by
  simp [drainPackets, Mutex.isFree, h]

theorem exec_rdReceive_state (h : s.radio.lc ≠ .running) :
    exec .rdReceive s = .next (s.answered (.error (.state s.radio.lc))) :=
  whenRadioRunning_no s _ h

theorem exec_rdReceive_running (h : s.radio.lc = .running) :
    exec .rdReceive s = .next (if s.radio.rxlLock = .free then
      (s.setRadio { s.radio with rxList := [] }).answered (.ok (.list s.radio.rxList)) else s.issued .rdReceive) := by
  simp only [exec, execRdReceive, whenRadioRunning_yes _ s.accept _ h]
  split_ifs with hl
  · rw [drainPackets_free (s := s.accept) hl]; rfl
  · rw [drainPackets_taken (s := s.accept) hl]; rfl

theorem rdReceiveStep_eq (t : Nat) :
    rdReceiveStep t s = if s.radio.rxlLock = .free then
      (s.setRadio { s.radio with rxList := [] }).ended t (.ok (.list s.radio.rxList)) else s := by
  unfold rdReceiveStep
  split_ifs with hl
  · rw [drainPackets_free hl]; rfl
  · rw [drainPackets_taken hl]

end

/-- Settles O50. -/
theorem rdReceive : Obligations.RdReceive := by
  unfold Obligations.RdReceive
  refine ⟨fun s => ⟨exec_rdReceive_state, fun hlc hl => ?_, fun hlc hl => ?_, rfl⟩,
    fun s t b hop => ⟨fun hl => ?_, fun hl => ?_⟩⟩
  · rw [exec_rdReceive_running hlc, if_pos hl]
  · rw [exec_rdReceive_running hlc, if_neg hl]
  · rw [resume_rdReceive b hop, rdReceiveStep_eq, if_pos hl]
  · rw [resume_rdReceive b hop, rdReceiveStep_eq, if_neg hl]

/-! ### RD.SHUTDOWN (R291) -/

section
variable {s : State}

theorem exec_rdShutdown_state (h : s.radio.lc ≠ .running) :
    exec .rdShutdown s = .next (s.answered (.error (.state s.radio.lc))) :=
  whenRadioRunning_no s _ h

theorem exec_rdShutdown_running (h : s.radio.lc = .running) :
    exec .rdShutdown s = .next (s.workingRadio { s.radio with lc := .shut } (.rdShutdown .drain)) := by
  simp only [exec, execRdShutdown, whenRadioRunning_yes _ s.accept _ h]
  rfl

variable {t : Nat} {b : Bool}

theorem rdShutdownStep_drain_over (h : s.radio.txq = [] ∨ b = true) :
    rdShutdownStep t .drain b s = s.setOp t (.rdShutdown .flag) := by
  obtain h | rfl := h <;> simp [rdShutdownStep, *]

theorem rdShutdownStep_drain_wait (h : s.radio.txq ≠ []) (hb : b = false) : rdShutdownStep t .drain b s = s := by
  simp [rdShutdownStep, h, hb]

theorem rdShutdownStep_flag :
    rdShutdownStep t .flag b s = (s.setRadio { s.radio with shutdown := true }).setOp t (.rdShutdown .lock) := rfl

theorem rdShutdownStep_lock (h : s.radio.spiLock = .free) :
    rdShutdownStep t .lock b s =
      (s.setRadio { s.radio with spiLock := .held (.host t) }).setOp t (.rdShutdown .close) := by
  simp [rdShutdownStep, Mutex.isFree, h]

theorem rdShutdownStep_lock_wait (h : s.radio.spiLock ≠ .free) : rdShutdownStep t .lock b s = s := by
  simp [rdShutdownStep, Mutex.isFree, h]

theorem rdShutdownStep_close :
    rdShutdownStep t .close b s = (s.setRadio { s.radio with
      irqEn := false, irqPend := 0, rst := .released, spiOpen := false, spiLock := .free }).setOp t
        (.rdShutdown .finish) := rfl

theorem rdShutdownStep_finish :
    rdShutdownStep t .finish b s = (s.setRadio { s.radio with txq := [], alloc := false }).ended t (.ok .none) := rfl

/-- A row of a freshly issued `RD.SHUTDOWN` that moves to the next one. -/
theorem resume_workingRadio_shutdown (hf : s.FreshTicket) {r r' : Radio} {st st' : RdShut}
    (h : rdShutdownStep s.nextTicket st b (s.workingRadio r (.rdShutdown st))
      = ((s.workingRadio r (.rdShutdown st)).setRadio r').setOp s.nextTicket (.rdShutdown st')) :
    resume s.nextTicket b (s.workingRadio r (.rdShutdown st)) = .next (s.workingRadio r' (.rdShutdown st')) := by
  rw [resume_rdShutdown b (State.findOp_workingRadio r _ hf), h, State.workingRadio_setRadio,
    State.workingRadio_setOp r' _ _ hf]

/-- The five rows after the first, when none of them has to wait. -/
theorem resumeMany_rdShutdown (hf : s.FreshTicket) (hq : s.radio.txq = [] ∨ b = true) (hl : s.radio.spiLock = .free) :
    resumeMany 5 s.nextTicket b (s.workingRadio { s.radio with lc := .shut } (.rdShutdown .drain)) =
      .next ((s.setRadio { s.radio with
        lc := .shut, shutdown := true, irqEn := false, irqPend := 0, rst := .released, spiOpen := false
        txq := [], alloc := false }).answered (.ok .none)) := by
  refine (resumeMany_succ 4 _ _ _ _ (resume_workingRadio_shutdown hf (r := { s.radio with lc := .shut })
    (r' := { s.radio with lc := .shut }) (by exact rdShutdownStep_drain_over hq))).trans ?_
  refine (resumeMany_succ 3 _ _ _ _ (resume_workingRadio_shutdown hf rdShutdownStep_flag)).trans ?_
  refine (resumeMany_succ 2 _ _ _ _ (resume_workingRadio_shutdown hf (by exact rdShutdownStep_lock hl))).trans ?_
  refine (resumeMany_succ 1 _ _ _ _ (resume_workingRadio_shutdown hf rdShutdownStep_close)).trans ?_
  refine (resumeMany_succ 0 _ _ _ _ (resume_rdShutdown b (State.findOp_workingRadio _ _ hf))).trans ?_
  refine congrArg Host.Outcome.next ((State.workingRadio_complete _ _ hf .none).trans ?_)
  simp [State.setRadio, hl]

end

/-- Settles O51. -/
theorem rdShutdownRuns : Obligations.RdShutdownRuns := by
  unfold Obligations.RdShutdownRuns
  refine ⟨fun s => ⟨exec_rdShutdown_state, rfl, exec_rdShutdown_running,
    fun b hf hq hl => resumeMany_rdShutdown hf hq hl⟩, fun s t b => ?_⟩
  refine ⟨fun hop hq => ?_, fun hop hq hb => ?_, fun hop => ?_, fun hop hl => ?_, fun hop hl => ?_, fun hop => ?_,
    fun hop => ?_⟩
  all_goals rw [resume_rdShutdown b hop]
  · rw [rdShutdownStep_drain_over hq]
  · rw [rdShutdownStep_drain_wait hq hb]
  · rw [rdShutdownStep_flag]
  · rw [rdShutdownStep_lock hl]
  · rw [rdShutdownStep_lock_wait hl]
  · rw [rdShutdownStep_close]
  · rw [rdShutdownStep_finish]

/-! ### The edge detector (R286) -/

theorem irqInput_eq (s : State) (l : Bool) :
    irqInput l s = { s with radio := { s.radio with
      irqLine := l
      irqPend := if s.radio.irqEn = true ∧ s.radio.irqLine = true ∧ l = false then s.radio.irqPend + 1
        else s.radio.irqPend } } := by
  simp [irqInput, Radio.irqInput, State.setRadio, and_assoc]

/-- One level counts at most one edge, the first of the sequence. -/
theorem irqPend_foldl (levels : List Bool) (s : State) :
    (levels.foldl (fun s l => irqInput l s) s).radio.irqPend
      = s.radio.irqPend + (if s.radio.irqEn then fallingEdges s.radio.irqLine levels else 0) := by
  induction levels generalizing s with
  | nil => simp [fallingEdges]
  | cons l levels ih =>
    rw [List.foldl_cons, ih, irqInput_eq, fallingEdges]
    cases s.radio.irqEn with
    | false => simp
    | true => cases s.radio.irqLine <;> cases l <;> simp [Nat.add_assoc]

/-- Settles O52. -/
theorem irqEdgesCounted : Obligations.IrqEdgesCounted := by
  unfold Obligations.IrqEdgesCounted
  intro s levels
  refine ⟨irqPend_foldl levels s, fun l rest h => ?_⟩
  rw [step_cons h, perform, irqInput_eq]

end Machine

end Sys2Proof
end

section
/-! PROOFS. The agents RD_TX and RD_IRQ (45_radio_txrx.md R283 to R290). -/

namespace Sys2Proof.Machine

section
variable {s : State} {g : Bool} {j : Nat} {st : PktStep}

/-! ### The rows of RD_TX -/

theorem exec_rdTxStep_failed (h : s.radio.lc = .failed) : exec (.rdTxStep g) s = .next s := by
  simp [exec, execRdTxStep, Radio.agentsLive, h]

theorem exec_rdTxStep (h : s.radio.lc ≠ .failed) : exec (.rdTxStep g) s = .next (rdTxRow g s) := by
  simp [exec, execRdTxStep, Radio.agentsLive, h]

theorem Radio.txBarred_iff (r : Radio) : r.txBarred = true ↔ r.lc = .constructing ∧ r.spiOpen = true := by
  simp [Radio.txBarred, Radio.portTaken]

/-- The agent is at a row that is one radio step. -/
def Radio.AtRadioRow (r : Radio) : Prop := (∃ j st, r.seqRdTx = .batch j st) ∨ r.seqRdTx = .rearm

/-- The agent does not take the row that gives up the rest of the batch (R293). -/
theorem not_givingUp (h : g = false ∨ s.radio.shutdown = false) : (g && s.radio.shutdown) = false := by
  rwa [Bool.and_eq_false_iff]

theorem rdTxRow_stopped (h : s.radio.seqRdTx = .stopped) : rdTxRow g s = s := by
  simp only [rdTxRow, h]

theorem rdTxRow_wait_stop (h : s.radio.seqRdTx = .wait) (hs : s.radio.shutdown = true) :
    rdTxRow g s = s.setRadio { s.radio with seqRdTx := .stopped } := by
  simp only [rdTxRow, h, hs, if_true, State.setRdTx]

theorem rdTxRow_wait_drain (h : s.radio.seqRdTx = .wait) (hs : s.radio.shutdown = false) (hq : s.radio.txq ≠ [])
    (hl : s.radio.txqLock = .free) :
    rdTxRow g s = s.setRadio { s.radio with
      txBatchR := s.radio.txq, txq := [], txIdx := 0, sentAny := false, seqRdTx := .batch 0 .clear } := by
  simp [rdTxRow, h, hs, hq, hl, Mutex.isFree, Radio.setSentAny]

theorem rdTxRow_wait_idle (h : s.radio.seqRdTx = .wait) (hs : s.radio.shutdown = false)
    (hq : s.radio.txq = [] ∨ s.radio.txqLock ≠ .free) : rdTxRow g s = s := by
  obtain hq | hq := hq <;> simp [rdTxRow, h, hs, hq, Mutex.isFree]

theorem rdTxRow_giveUp (h : s.radio.AtRadioRow) (hs : s.radio.shutdown = true) :
    rdTxRow true s = s.setRadio { s.radio with seqRdTx := .stopped } := by
  obtain ⟨j, st, h⟩ | h := h <;> simp only [rdTxRow, h, hs, Bool.and_self, if_true, State.setRdTx]

theorem rdTxRow_barred (h : s.radio.AtRadioRow) (hg : g = false ∨ s.radio.shutdown = false)
    (hb : s.radio.txBarred = true) : rdTxRow g s = s := by
  obtain ⟨j, st, h⟩ | h := h <;> simp [rdTxRow, h, not_givingUp hg, hb]

section
variable (hg : g = false ∨ s.radio.shutdown = false) (hb : s.radio.txBarred = false)
include hg hb

theorem rdTxRow_clear (h : s.radio.seqRdTx = .batch j .clear) :
    rdTxRow g s = pktAfter j (fun s => s.setRdTx (.batch j .write)) s
      (radioStep s.cfg.opcClearTxFifo.bytes 0 (s.setRadio { s.radio with txIdx := j })) := by
  simp only [rdTxRow, h, not_givingUp hg, hb]
  rfl

theorem rdTxRow_write {p : List Byte} {s1 : State} (h : s.radio.seqRdTx = .batch j .write)
    (hp : s.batchPacket j = (p, s1)) :
    rdTxRow g s = pktAfter j (fun s => s.setRdTx (.batch j .start)) s
      (radioStep (s1.cfg.opcWriteTxFifo.bytes ++ p) 0 s1) := by
  simp only [rdTxRow, h, not_givingUp hg, hb, hp]
  rfl

theorem rdTxRow_start {p : List Byte} {s1 : State} (h : s.radio.seqRdTx = .batch j .start)
    (hp : s.batchPacket j = (p, s1)) :
    rdTxRow g s = pktAfter j (fun s => (s.setRadio (s.radio.setSentAny true)).nextPacket j) s
      (radioStep (s1.cfg.opcStartTx.bytes ++ Config.argsStartTx s.radio.channel p.length) 0 s1) := by
  simp only [rdTxRow, h, not_givingUp hg, hb, hp]
  rfl

theorem rdTxRow_rearm (h : s.radio.seqRdTx = .rearm) :
    rdTxRow g s = rearmAfter s
      (radioStep (s.cfg.opcStartRx.bytes ++ Config.argsStartRx s.radio.channel) 0 s) := by
  simp only [rdTxRow, h, not_givingUp hg, hb]
  rfl

end

theorem State.batchPacket_some {p : List Byte} (h : s.radio.txBatchR[j]? = some p) : s.batchPacket j = (p, s) := by
  rw [State.batchPacket, h]

theorem State.batchPacket_none (h : s.radio.txBatchR[j]? = none) :
    s.batchPacket j = (Config.stalePacket s.draws, { s with draws := s.draws + 1 }) := by
  rw [State.batchPacket, h]

/-- Taking the packet at hand costs at most a draw, and none while the batch holds it. -/
theorem State.batchPacket_spec (s : State) (j : Nat) :
    ∃ p d, s.batchPacket j = (p, { s with draws := d }) ∧ ∀ q, s.radio.txBatchR[j]? = some q → p = q ∧ d = s.draws := by
  cases h : s.radio.txBatchR[j]? with
  | none => exact ⟨_, _, State.batchPacket_none h, by simp⟩
  | some p => exact ⟨p, s.draws, State.batchPacket_some h, by simp⟩

/-- With SPILOCK taken a radio row waits. -/
theorem rdTxRow_held (h : s.radio.AtRadioRow) (hg : g = false ∨ s.radio.shutdown = false)
    (hl : s.radio.spiLock ≠ .free) : rdTxRow g s = s := by
  by_cases hb : s.radio.txBarred = true
  · exact rdTxRow_barred h hg hb
  rw [Bool.not_eq_true] at hb
  obtain ⟨j, st, h⟩ | h := h
  · obtain ⟨p, d, hp, -⟩ := s.batchPacket_spec j
    cases st with
    | clear => rw [rdTxRow_clear hg hb h, radioStep_held _ _ (by exact hl)]; rfl
    | write => rw [rdTxRow_write hg hb h hp, radioStep_held (s := { s with draws := d }) _ _ hl]; rfl
    | start => rw [rdTxRow_start hg hb h hp, radioStep_held (s := { s with draws := d }) _ _ hl]; rfl
  · rw [rdTxRow_rearm hg hb h, radioStep_held _ _ hl]; rfl

/-- With the port closed a radio row of a packet stops the agent. -/
theorem rdTxRow_packet_closed (h : s.radio.seqRdTx = .batch j st) (hst : st ≠ .clear)
    (hg : g = false ∨ s.radio.shutdown = false) (hl : s.radio.spiLock = .free) (ho : s.radio.spiOpen = false) :
    ∃ d, rdTxRow g s = { s with
        radio := { s.radio with seqPoll := .idle, res := .closed, seqRdTx := .stopped }, draws := d }
      ∧ ∀ p, s.radio.txBatchR[j]? = some p → d = s.draws := by
  have hb : s.radio.txBarred = false := by simp [Radio.txBarred, Radio.portTaken, ho]
  obtain ⟨p, d, hp, hd⟩ := s.batchPacket_spec j
  refine ⟨d, ?_, fun q hq => (hd q hq).2⟩
  cases st with
  | clear => contradiction
  | write => rw [rdTxRow_write hg hb h hp, radioStep_closed (s := { s with draws := d }) _ _ hl ho]; rfl
  | start => rw [rdTxRow_start hg hb h hp, radioStep_closed (s := { s with draws := d }) _ _ hl ho]; rfl

/-- The end of a radio step of packet `j` with the port open. -/
theorem afterRadioStep_packet {s0 : State} {cmd : List Byte} {ok : State → State} (hl : s0.radio.spiLock = .free)
    (ho : s0.radio.spiOpen = true) :
    AfterRadioStep cmd 0 s0 fun s1 =>
      ((∃ r, s1.radio.res = .ready r) ∧ pktAfter j ok s (radioStep cmd 0 s0) = ok s1)
      ∨ (s1.radio.res = .timeout ∧ pktAfter j ok s (radioStep cmd 0 s0) = s1.nextPacket j) := by
  obtain ⟨res, t, ht, hdone, hres, ⟨r, rfl, -⟩ | rfl⟩ := radioStep_open cmd 0 hl ho
  · exact ⟨t, hdone, .inl ⟨⟨r, hres⟩, by rw [ht]; rfl⟩⟩
  · exact ⟨t, hdone, .inr ⟨hres, by rw [ht]; rfl⟩⟩

/-- The end of the re-arm with the port open: READY and TIMEOUT alike (R285). -/
theorem afterRadioStep_rearm {cmd : List Byte} (hl : s.radio.spiLock = .free) (ho : s.radio.spiOpen = true) :
    AfterRadioStep cmd 0 s fun s1 =>
      rearmAfter s (radioStep cmd 0 s) = s1.setRadio { s1.radio with txBatchR := [], seqRdTx := .wait } := by
  obtain ⟨res, t, ht, hdone, -, ⟨r, rfl, -⟩ | rfl⟩ := radioStep_open cmd 0 hl ho <;> exact ⟨t, hdone, by rw [ht]; rfl⟩

theorem AfterRadioStep.imp {cmd : List Byte} {k : Nat} {P Q : State → Prop} (h : AfterRadioStep cmd k s P)
    (hPQ : ∀ s1, P s1 → Q s1) : AfterRadioStep cmd k s Q := by
  obtain ⟨s1, hdone, hP⟩ := h
  exact ⟨s1, hdone, hPQ s1 hP⟩

end

/-- Settles O45. -/
theorem rdTxRows : Obligations.RdTxRows := by
  unfold Obligations.RdTxRows
  intro next
  refine ⟨fun s g => exec_rdTxStep_failed, fun s g hlc ho h hg => ?_, fun s hlc => ?_⟩
  · rw [exec_rdTxStep (by rw [hlc]; decide), rdTxRow_barred h hg ((s.radio.txBarred_iff).2 ⟨hlc, ho⟩)]
  simp only [exec_rdTxStep hlc, Host.Outcome.next.injEq]
  refine ⟨fun g => rdTxRow_wait_stop, fun g => rdTxRow_wait_drain, fun g => rdTxRow_wait_idle,
    fun g => rdTxRow_stopped, rdTxRow_giveUp, fun g => rdTxRow_held, fun g hg hl ho => ?_,
    fun g hl ho hcons hg => ?_⟩
  · have hb : s.radio.txBarred = false := by simp [Radio.txBarred, Radio.portTaken, ho]
    refine ⟨fun j h => ?_, fun j st h hst => rdTxRow_packet_closed h hst hg hl ho, fun h => ?_⟩
    · rw [rdTxRow_clear hg hb h, radioStep_closed _ _ (by exact hl) (by exact ho)]; rfl
    · rw [rdTxRow_rearm hg hb h, radioStep_closed _ _ hl ho]; rfl
  · have hb : s.radio.txBarred = false := by simp [Radio.txBarred, Radio.portTaken, hcons]
    refine ⟨fun j h => ?_, fun j p h hp => ?_, fun j p h hp => ?_, fun h => ?_⟩
    · rw [rdTxRow_clear hg hb h]
      exact afterRadioStep_packet hl ho
    · rw [rdTxRow_write hg hb h (State.batchPacket_some hp)]
      exact afterRadioStep_packet hl ho
    · rw [rdTxRow_start hg hb h (State.batchPacket_some hp)]
      exact afterRadioStep_packet hl ho
    · rw [rdTxRow_rearm hg hb h]
      exact afterRadioStep_rearm hl ho

/-! ### The rows of RD_IRQ -/

section
variable {s : State}

theorem exec_rdIrqStep_failed (h : s.radio.lc = .failed) : exec .rdIrqStep s = .next s := by
  simp [exec, execRdIrqStep, Radio.agentsLive, h]

theorem exec_rdIrqStep (h : s.radio.lc ≠ .failed) : exec .rdIrqStep s = .next (rdIrqRow s) := by
  simp [exec, execRdIrqStep, Radio.agentsLive, h]

theorem Radio.irqBarred_iff (r : Radio) :
    r.irqBarred = true ↔ r.lc = .constructing ∧ r.spiOpen = true ∧ r.irqEn = false := by
  simp [Radio.irqBarred, Radio.portTaken, and_assoc]

/-- The handler is at a row that is one radio step. -/
def Radio.AtIrqRow (r : Radio) : Prop := r.seqRdIrq = .len ∨ ∃ n, r.seqRdIrq = .data n

theorem rdIrqRow_idle_edge (h : s.radio.seqRdIrq = .idle) (he : s.radio.irqEn = true) (hp : 0 < s.radio.irqPend) :
    rdIrqRow s = s.setRadio { s.radio with irqPend := s.radio.irqPend - 1, seqRdIrq := .len } := by
  simp [rdIrqRow, h, he, hp]

theorem rdIrqRow_idle (h : s.radio.seqRdIrq = .idle) (he : s.radio.irqEn = false ∨ s.radio.irqPend = 0) :
    rdIrqRow s = s := by
  obtain he | he := he <;> simp [rdIrqRow, h, he]

theorem rdIrqRow_barred (h : s.radio.AtIrqRow) (hb : s.radio.irqBarred = true) : rdIrqRow s = s := by
  obtain h | ⟨n, h⟩ := h <;> simp only [rdIrqRow, h, hb, if_true]

theorem rdIrqRow_len (h : s.radio.seqRdIrq = .len) (hb : s.radio.irqBarred = false) :
    rdIrqRow s = lenAfter s (radioStep s.cfg.opcRxLen.bytes 2 s) := by
  simp only [rdIrqRow, h, hb]
  rfl

theorem rdIrqRow_data {n : Nat} (h : s.radio.seqRdIrq = .data n) (hb : s.radio.irqBarred = false) :
    rdIrqRow s = dataAfter s (radioStep s.cfg.opcReadRxFifo.bytes n s) := by
  simp only [rdIrqRow, h, hb]
  rfl

theorem rdIrqRow_store {d : List Byte} (h : s.radio.seqRdIrq = .store d) (hl : s.radio.rxlLock = .free) :
    rdIrqRow s = s.setRadio { s.radio with rxList := s.radio.rxList ++ [d], seqRdIrq := .idle } := by
  simp [rdIrqRow, h, Mutex.isFree, hl]

theorem rdIrqRow_store_wait {d : List Byte} (h : s.radio.seqRdIrq = .store d) (hl : s.radio.rxlLock ≠ .free) :
    rdIrqRow s = s := by
  simp [rdIrqRow, h, Mutex.isFree, hl]

/-- With SPILOCK taken a radio row waits. -/
theorem rdIrqRow_held (h : s.radio.AtIrqRow) (hl : s.radio.spiLock ≠ .free) : rdIrqRow s = s := by
  by_cases hb : s.radio.irqBarred = true
  · exact rdIrqRow_barred h hb
  rw [Bool.not_eq_true] at hb
  obtain h | ⟨n, h⟩ := h
  · rw [rdIrqRow_len h hb, radioStep_held _ _ hl]; rfl
  · rw [rdIrqRow_data h hb, radioStep_held _ _ hl]; rfl

/-- With the port closed a radio row ends the handler. -/
theorem rdIrqRow_closed (h : s.radio.AtIrqRow) (hl : s.radio.spiLock = .free) (ho : s.radio.spiOpen = false) :
    rdIrqRow s = s.setRadio { s.radio with seqPoll := .idle, res := .closed, seqRdIrq := .idle } := by
  have hb : s.radio.irqBarred = false := by simp [Radio.irqBarred, Radio.portTaken, ho]
  obtain h | ⟨n, h⟩ := h
  · rw [rdIrqRow_len h hb, radioStep_closed _ _ hl ho]; rfl
  · rw [rdIrqRow_data h hb, radioStep_closed _ _ hl ho]; rfl

/-! ### The length response (R128) -/

theorem applyRxLen_len (hi lo : Byte) (h : s.radio.seqRdIrq = .len) :
    applyRxLen hi lo s = s.setRadio { s.radio with seqRdIrq := .data (256 * hi.toNat + lo.toNat) } := by
  simp only [applyRxLen, h]
  rfl

theorem applyRxLen_other (hi lo : Byte) (h : s.radio.seqRdIrq ≠ .len) : applyRxLen hi lo s = s := by
  unfold applyRxLen
  split
  · contradiction
  · rfl

/-- The end of row LEN with the port open. -/
theorem afterRadioStep_len {cmd : List Byte} (h : s.radio.seqRdIrq = .len) (hl : s.radio.spiLock = .free)
    (ho : s.radio.spiOpen = true) :
    AfterRadioStep cmd 2 s fun s1 =>
      (∃ hi lo, s1.radio.res = .ready [hi, lo] ∧ lenAfter s (radioStep cmd 2 s) =
        s1.setRadio { s1.radio with seqRdIrq := .data (256 * hi.toNat + lo.toNat) })
      ∨ (s1.radio.res = .timeout
        ∧ lenAfter s (radioStep cmd 2 s) = s1.setRadio { s1.radio with seqRdIrq := .idle }) := by
  obtain ⟨res, t, ht, hdone, hres, ⟨r, rfl, hr⟩ | rfl⟩ := radioStep_open cmd 2 hl ho
  · obtain ⟨hi, lo, rfl⟩ := List.length_eq_two.1 hr
    have hlen : t.radio.seqRdIrq = .len := by
      obtain ⟨reads, -, hst⟩ := hdone
      rw [hst]
      exact h
    exact ⟨t, hdone, .inl ⟨hi, lo, hres, by rw [ht]; exact applyRxLen_len hi lo hlen⟩⟩
  · exact ⟨t, hdone, .inr ⟨hres, by rw [ht]; rfl⟩⟩

/-- The end of row DATA with the port open. -/
theorem afterRadioStep_data {cmd : List Byte} {n : Nat} (hl : s.radio.spiLock = .free) (ho : s.radio.spiOpen = true) :
    AfterRadioStep cmd n s fun s1 =>
      (∃ d, d.length = n ∧ s1.radio.res = .ready d
        ∧ dataAfter s (radioStep cmd n s) = s1.setRadio { s1.radio with seqRdIrq := .store d })
      ∨ (s1.radio.res = .timeout
        ∧ dataAfter s (radioStep cmd n s) = s1.setRadio { s1.radio with seqRdIrq := .idle }) := by
  obtain ⟨res, t, ht, hdone, hres, ⟨r, rfl, hr⟩ | rfl⟩ := radioStep_open cmd n hl ho
  · exact ⟨t, hdone, .inl ⟨r, hr, hres, by rw [ht]; rfl⟩⟩
  · exact ⟨t, hdone, .inr ⟨hres, by rw [ht]; rfl⟩⟩

end

/-- Settles O47. -/
theorem rdIrqRows : Obligations.RdIrqRows := by
  unfold Obligations.RdIrqRows
  refine ⟨fun s => exec_rdIrqStep_failed, fun s hlc ho he h => ?_, fun s hlc => ?_⟩
  · rw [exec_rdIrqStep (by rw [hlc]; decide), rdIrqRow_barred h ((s.radio.irqBarred_iff).2 ⟨hlc, ho, he⟩)]
  have hbarred (he : s.radio.lc = .constructing → s.radio.irqEn = true) : s.radio.irqBarred = false := by
    refine Bool.eq_false_iff.2 fun hb => ?_
    obtain ⟨hc, -, he'⟩ := s.radio.irqBarred_iff.1 hb
    exact Bool.false_ne_true (he'.symm.trans (he hc))
  simp only [exec_rdIrqStep hlc, Host.Outcome.next.injEq]
  refine ⟨rdIrqRow_idle_edge, rdIrqRow_idle, fun h hl ho he => ?_, fun n h hl ho he => ?_, rdIrqRow_closed,
    rdIrqRow_held, fun d => rdIrqRow_store, fun d => rdIrqRow_store_wait⟩
  · rw [rdIrqRow_len h (hbarred he)]
    exact afterRadioStep_len h hl ho
  · rw [rdIrqRow_data h (hbarred he)]
    exact afterRadioStep_data hl ho

end Sys2Proof.Machine

namespace Sys2Proof.Settled

open Sys2Proof.Machine

/-- Settles O49. -/
theorem rxLenValue : Obligations.RxLenValue := by
  unfold Obligations.RxLenValue
  intro s hi lo
  exact ⟨fun h => congrArg _ (applyRxLen_len hi lo h), fun h => congrArg _ (applyRxLen_other hi lo h)⟩

end Sys2Proof.Settled
end

section
/-! PROOFS. Runs of the radio's agents along a tape of ready answers (45_radio_txrx.md R283, R285, R287, R296). -/

namespace Sys2Proof.Machine

/-- The radio has become `r`, and what is left of the environment's answers is given. -/
def State.withTape (s : State) (r : Radio) (tape : List Byte) (l : List Nat) (d : Nat) : State :=
  { s with radio := r, spiIn := tape, pollLimits := l, draws := d }

section
variable {s : State} {g : Bool} {tape : List Byte} {l : List Nat} {d : Nat} {r : Radio}

/-- The radio step whose command is answered at once. -/
theorem radioStep_withTape (cmd resp rest : List Byte) (hl : r.spiLock = .free) (ho : r.spiOpen = true) :
    ∃ l' d', radioStep cmd resp.length (s.withTape r (s.cfg.ctsReady :: (resp ++ rest)) l d) =
      (.ready resp, s.withTape { r with
        spiLog := r.spiLog ++ readyLog s.cfg cmd resp, seqPoll := .idle, res := .ready resp } rest l' d') :=
  radioStep_ready cmd resp rest (s.withTape r (s.cfg.ctsReady :: (resp ++ rest)) l d) hl ho rfl

/-! ### A batch of RD_TX -/

/-- RD_TX may run: the port is free and open, and no construction, failure or shutdown stands in its way. -/
structure Radio.TxLive (r : Radio) : Prop where
  notFailed : r.lc ≠ .failed
  notConstructing : r.lc ≠ .constructing
  going : r.shutdown = false
  lockFree : r.spiLock = .free
  portOpen : r.spiOpen = true

theorem Radio.TxLive.notBarred (h : r.TxLive) : r.txBarred = false := by
  simp [Radio.txBarred, Radio.portTaken, h.notConstructing]

section
variable {j : Nat} {p : List Byte} {rest : List Byte} (hr : r.TxLive)
include hr

theorem exec_clear_ready (h : r.seqRdTx = .batch j .clear) :
    ∃ l' d', exec (.rdTxStep g) (s.withTape r (s.cfg.ctsReady :: rest) l d) = .next (s.withTape { r with
      txIdx := j, spiLog := r.spiLog ++ readyLog s.cfg s.cfg.opcClearTxFifo.bytes []
      seqPoll := .idle, res := .ready [], seqRdTx := .batch j .write } rest l' d') := by
  obtain ⟨l', d', hstep⟩ := radioStep_withTape (s := s) (r := { r with txIdx := j }) (l := l) (d := d)
    s.cfg.opcClearTxFifo.bytes [] rest hr.lockFree hr.portOpen
  refine ⟨l', d', (exec_rdTxStep hr.notFailed).trans (congrArg _ ?_)⟩
  exact (rdTxRow_clear (.inr hr.going) hr.notBarred h).trans (congrArg (pktAfter j _ _) hstep)

theorem exec_write_ready (h : r.seqRdTx = .batch j .write) (hp : r.txBatchR[j]? = some p) :
    ∃ l' d', exec (.rdTxStep g) (s.withTape r (s.cfg.ctsReady :: rest) l d) = .next (s.withTape { r with
      spiLog := r.spiLog ++ readyLog s.cfg (s.cfg.opcWriteTxFifo.bytes ++ p) []
      seqPoll := .idle, res := .ready [], seqRdTx := .batch j .start } rest l' d') := by
  obtain ⟨l', d', hstep⟩ := radioStep_withTape (s := s) (r := r) (l := l) (d := d)
    (s.cfg.opcWriteTxFifo.bytes ++ p) [] rest hr.lockFree hr.portOpen
  refine ⟨l', d', (exec_rdTxStep hr.notFailed).trans (congrArg _ ?_)⟩
  exact (rdTxRow_write (.inr hr.going) hr.notBarred h (State.batchPacket_some hp)).trans
    (congrArg (pktAfter j _ _) hstep)

/-- Row START, after which the next packet of the batch follows, or the re-arm. -/
theorem exec_start_ready (h : r.seqRdTx = .batch j .start) (hp : r.txBatchR[j]? = some p) :
    ∃ l' d', exec (.rdTxStep g) (s.withTape r (s.cfg.ctsReady :: rest) l d) = .next (s.withTape { r with
      spiLog := r.spiLog ++ readyLog s.cfg (s.cfg.opcStartTx.bytes ++ Config.argsStartTx r.channel p.length) []
      seqPoll := .idle, res := .ready [], sentAny := true
      seqRdTx := if j + 1 < r.txBatchR.length then .batch (j + 1) .clear else .rearm } rest l' d') := by
  obtain ⟨l', d', hstep⟩ := radioStep_withTape (s := s) (r := r) (l := l) (d := d)
    (s.cfg.opcStartTx.bytes ++ Config.argsStartTx r.channel p.length) [] rest hr.lockFree hr.portOpen
  refine ⟨l', d', (exec_rdTxStep hr.notFailed).trans (congrArg _ ?_)⟩
  refine (rdTxRow_start (.inr hr.going) hr.notBarred h (State.batchPacket_some hp)).trans
    ((congrArg (pktAfter j _ _) hstep).trans ?_)
  by_cases hj : j + 1 < r.txBatchR.length
  · simp only [pktAfter, State.nextPacket, State.withTape, State.setRadio, Radio.setSentAny, State.setRdTx, hj, if_true]
  · simp only [pktAfter, State.nextPacket, State.withTape, State.setRadio, Radio.setSentAny, State.setRdTx, hj,
      if_true, if_false]

theorem exec_rearm_ready (h : r.seqRdTx = .rearm) :
    ∃ l' d', exec (.rdTxStep g) (s.withTape r (s.cfg.ctsReady :: rest) l d) = .next (s.withTape { r with
      spiLog := r.spiLog ++ readyLog s.cfg (s.cfg.opcStartRx.bytes ++ Config.argsStartRx r.channel) []
      seqPoll := .idle, res := .ready [], txBatchR := [], seqRdTx := .wait } rest l' d') := by
  obtain ⟨l', d', hstep⟩ := radioStep_withTape (s := s) (r := r) (l := l) (d := d)
    (s.cfg.opcStartRx.bytes ++ Config.argsStartRx r.channel) [] rest hr.lockFree hr.portOpen
  refine ⟨l', d', (exec_rdTxStep hr.notFailed).trans (congrArg _ ?_)⟩
  exact (rdTxRow_rearm (.inr hr.going) hr.notBarred h).trans (congrArg (rearmAfter _) hstep)

/-- The three rows of one packet. -/
theorem execMany_packet (h : r.seqRdTx = .batch j .clear) (hp : r.txBatchR[j]? = some p) :
    ∃ l' d', execMany (List.replicate 3 (.rdTxStep g))
        (s.withTape r (s.cfg.ctsReady :: s.cfg.ctsReady :: s.cfg.ctsReady :: rest) l d) = .next (s.withTape { r with
      txIdx := j, spiLog := r.spiLog ++ packetLog s.cfg r.channel p
      seqPoll := .idle, res := .ready [], sentAny := true
      seqRdTx := if j + 1 < r.txBatchR.length then .batch (j + 1) .clear else .rearm } rest l' d') := by
  obtain ⟨notFailed, notConstructing, going, lockFree, portOpen⟩ := hr
  obtain ⟨l₁, d₁, h₁⟩ := exec_clear_ready (s := s) (g := g) (l := l) (d := d)
    (rest := s.cfg.ctsReady :: s.cfg.ctsReady :: rest) ⟨notFailed, notConstructing, going, lockFree, portOpen⟩ h
  obtain ⟨l₂, d₂, h₂⟩ := exec_write_ready (s := s) (g := g) (l := l₁) (d := d₁) (p := p)
    (r := { r with
      txIdx := j, spiLog := r.spiLog ++ readyLog s.cfg s.cfg.opcClearTxFifo.bytes []
      seqPoll := .idle, res := .ready [], seqRdTx := .batch j .write })
    (rest := s.cfg.ctsReady :: rest) ⟨notFailed, notConstructing, going, lockFree, portOpen⟩ rfl hp
  obtain ⟨l₃, d₃, h₃⟩ := exec_start_ready (s := s) (g := g) (l := l₂) (d := d₂) (p := p)
    (r := { r with
      txIdx := j
      spiLog := r.spiLog ++ readyLog s.cfg s.cfg.opcClearTxFifo.bytes []
        ++ readyLog s.cfg (s.cfg.opcWriteTxFifo.bytes ++ p) []
      seqPoll := .idle, res := .ready [], seqRdTx := .batch j .start })
    (rest := rest) ⟨notFailed, notConstructing, going, lockFree, portOpen⟩ rfl hp
  refine ⟨l₃, d₃, ?_⟩
  refine (execMany_cons _ _ _ _ h₁).trans ((execMany_cons _ _ _ _ h₂).trans ((execMany_cons _ _ _ _ h₃).trans ?_))
  rw [packetLog, ← List.append_assoc, ← List.append_assoc]
  rfl

/-- The rows of the packets still to be sent: `pre` is behind the agent. -/
theorem execMany_packets {pre post : List (List Byte)} (hsplit : r.txBatchR = pre ++ p :: post)
    (h : r.seqRdTx = .batch pre.length .clear) :
    ∃ l' d', execMany (List.replicate (3 * (post.length + 1)) (.rdTxStep g))
        (s.withTape r (List.replicate (3 * (post.length + 1)) s.cfg.ctsReady ++ rest) l d) = .next (s.withTape { r with
      txIdx := pre.length + post.length, spiLog := r.spiLog ++ (p :: post).flatMap (packetLog s.cfg r.channel)
      seqPoll := .idle, res := .ready [], sentAny := true, seqRdTx := .rearm } rest l' d') := by
  induction post generalizing pre p r l d with
  | nil =>
    obtain ⟨l', d', hpkt⟩ := execMany_packet (s := s) (g := g) (l := l) (d := d) (rest := rest) hr h
      (p := p) (by simp [hsplit])
    rw [if_neg (by simp [hsplit])] at hpkt
    exact ⟨l', d', hpkt.trans (by simp)⟩
  | cons p' post ih =>
    obtain ⟨l₁, d₁, hpkt⟩ := execMany_packet (s := s) (g := g) (l := l) (d := d)
      (rest := List.replicate (3 * (post.length + 1)) s.cfg.ctsReady ++ rest) hr h (p := p) (by simp [hsplit])
    rw [if_pos (by simp [hsplit])] at hpkt
    obtain ⟨notFailed, notConstructing, going, lockFree, portOpen⟩ := hr
    obtain ⟨l', d', hrest⟩ := ih (pre := pre ++ [p]) (p := p') (l := l₁) (d := d₁)
      (r := { r with
        txIdx := pre.length, spiLog := r.spiLog ++ packetLog s.cfg r.channel p
        seqPoll := .idle, res := .ready [], sentAny := true, seqRdTx := .batch (pre.length + 1) .clear })
      ⟨notFailed, notConstructing, going, lockFree, portOpen⟩ (by simp [hsplit]) (by simp)
    refine ⟨l', d', ?_⟩
    have hcount : 3 * ((p' :: post).length + 1) = 3 + 3 * (post.length + 1) := by
      rw [List.length_cons]
      omega
    rw [hcount, List.replicate_add, List.replicate_add, List.append_assoc]
    refine (execMany_append _ _ _ _ hpkt).trans (hrest.trans ?_)
    simp [Nat.add_assoc, Nat.add_comm 1]

end

end

/-- Settles O46. The drain of TXQ, the packets in order, the re-arm. -/
theorem rdTxBatchRuns : Obligations.RdTxBatchRuns := by
  unfold Obligations.RdTxBatchRuns
  intro s g rest hfailed hcons hwait hshut htxq hqlock hlock hopen htape
  obtain ⟨p, ps, hps⟩ := List.exists_cons_of_ne_nil htxq
  have hlen : s.radio.txq.length = ps.length + 1 := by rw [hps, List.length_cons]
  have hdrain : exec (.rdTxStep g) s = .next (s.withTape { s.radio with
      txBatchR := s.radio.txq, txq := [], txIdx := 0, sentAny := false, seqRdTx := .batch 0 .clear }
      s.spiIn s.pollLimits s.draws) :=
    (exec_rdTxStep hfailed).trans (congrArg _ (rdTxRow_wait_drain hwait hshut htxq hqlock))
  obtain ⟨l₁, d₁, hpackets⟩ := execMany_packets (s := s) (g := g) (l := s.pollLimits) (d := s.draws) (pre := [])
    (r := { s.radio with
      txBatchR := s.radio.txq, txq := [], txIdx := 0, sentAny := false, seqRdTx := .batch 0 .clear })
    (rest := s.cfg.ctsReady :: rest) ⟨hfailed, hcons, hshut, hlock, hopen⟩ hps rfl
  obtain ⟨l₂, d₂, hrearm⟩ := exec_rearm_ready (s := s) (g := g) (l := l₁) (d := d₁) (rest := rest)
    (r := { s.radio with
      txBatchR := s.radio.txq, txq := [], txIdx := ([] : List (List Byte)).length + ps.length
      spiLog := s.radio.spiLog ++ (p :: ps).flatMap (packetLog s.cfg s.radio.channel)
      seqPoll := .idle, res := .ready [], sentAny := true, seqRdTx := .rearm })
    ⟨hfailed, hcons, hshut, hlock, hopen⟩ rfl
  have hsplit : s.spiIn = List.replicate (3 * (ps.length + 1)) s.cfg.ctsReady ++ s.cfg.ctsReady :: rest := by
    rw [htape, hlen, List.replicate_succ', List.append_assoc]
    rfl
  rw [← hsplit] at hpackets
  have hrun : execMany (.rdTxStep g :: (List.replicate (3 * (ps.length + 1)) (.rdTxStep g) ++ [.rdTxStep g])) s = _ :=
    (execMany_cons _ _ _ _ hdrain).trans ((execMany_append _ _ _ _ hpackets).trans (execMany_cons _ _ _ _ hrearm))
  rw [hlen, List.replicate_succ, List.replicate_succ']
  refine ⟨_, hrun, ?_⟩
  simp [State.withTape, hps, hwait]

/-! ### A received packet -/

section
variable {s : State} {r : Radio} {l : List Nat} {n : Nat} {rest : List Byte}

theorem exec_len_ready (hi lo : Byte) (hlc : r.lc = .running) (hl : r.spiLock = .free) (ho : r.spiOpen = true)
    (h : r.seqRdIrq = .len) {d : Nat} :
    ∃ l' d', exec .rdIrqStep (s.withTape r (s.cfg.ctsReady :: hi :: lo :: rest) l d) = .next (s.withTape { r with
      spiLog := r.spiLog ++ readyLog s.cfg s.cfg.opcRxLen.bytes [hi, lo], seqPoll := .idle, res := .ready [hi, lo]
      seqRdIrq := .data (256 * hi.toNat + lo.toNat) } rest l' d') := by
  obtain ⟨l', d', hstep⟩ := radioStep_withTape (s := s) (r := r) (l := l) (d := d) s.cfg.opcRxLen.bytes [hi, lo] rest
    hl ho
  have hb : r.irqBarred = false := by simp [Radio.irqBarred, Radio.portTaken, hlc]
  have hlen := rdIrqRow_len (s := s.withTape r (s.cfg.ctsReady :: hi :: lo :: rest) l d) h hb
  refine ⟨l', d', (exec_rdIrqStep (by exact hlc ▸ by decide)).trans (congrArg _ ?_)⟩
  exact hlen.trans ((congrArg (lenAfter _) hstep).trans (applyRxLen_len hi lo h))

theorem exec_data_ready (resp : List Byte) (hlc : r.lc = .running) (hl : r.spiLock = .free) (ho : r.spiOpen = true)
    (h : r.seqRdIrq = .data resp.length) {d : Nat} :
    ∃ l' d', exec .rdIrqStep (s.withTape r (s.cfg.ctsReady :: (resp ++ rest)) l d) = .next (s.withTape { r with
      spiLog := r.spiLog ++ readyLog s.cfg s.cfg.opcReadRxFifo.bytes resp, seqPoll := .idle, res := .ready resp
      seqRdIrq := .store resp } rest l' d') := by
  obtain ⟨l', d', hstep⟩ := radioStep_withTape (s := s) (r := r) (l := l) (d := d) s.cfg.opcReadRxFifo.bytes resp rest
    hl ho
  have hb : r.irqBarred = false := by simp [Radio.irqBarred, Radio.portTaken, hlc]
  refine ⟨l', d', (exec_rdIrqStep (by exact hlc ▸ by decide)).trans (congrArg _ ?_)⟩
  exact (rdIrqRow_data h hb).trans (congrArg (dataAfter _) hstep)

end

/-- Settles O48. The four rows of RD_IRQ, then the drain of RXLIST. -/
theorem receiveRuns : Obligations.ReceiveRuns := by
  unfold Obligations.ReceiveRuns
  intro s hi lo d rest hlc hidle hen hpend hlock hopen hrxl hd htape
  have hlive : s.radio.lc ≠ .failed := by rw [hlc]; decide
  have hedge : exec .rdIrqStep s = .next (s.withTape { s.radio with irqPend := s.radio.irqPend - 1, seqRdIrq := .len }
      s.spiIn s.pollLimits s.draws) :=
    (exec_rdIrqStep hlive).trans (congrArg _ (rdIrqRow_idle_edge hidle hen (by omega)))
  obtain ⟨l₁, d₁, hlen⟩ := exec_len_ready (s := s) (r := { s.radio with
      irqPend := s.radio.irqPend - 1, seqRdIrq := .len }) (l := s.pollLimits) (d := s.draws)
    (rest := s.cfg.ctsReady :: (d ++ rest)) hi lo hlc hlock hopen rfl
  obtain ⟨l₂, d₂, hdata⟩ := exec_data_ready (s := s) (r := { s.radio with
      irqPend := s.radio.irqPend - 1
      spiLog := s.radio.spiLog ++ readyLog s.cfg s.cfg.opcRxLen.bytes [hi, lo], seqPoll := .idle
      res := .ready [hi, lo], seqRdIrq := .data (256 * hi.toNat + lo.toNat) }) (l := l₁) (d := d₁)
    (rest := rest) d hlc hlock hopen (by rw [hd])
  rw [← htape] at hlen
  have hstore := (exec_rdIrqStep (s := s.withTape { s.radio with
      irqPend := s.radio.irqPend - 1
      spiLog := s.radio.spiLog ++ readyLog s.cfg s.cfg.opcRxLen.bytes [hi, lo]
        ++ readyLog s.cfg s.cfg.opcReadRxFifo.bytes d, seqPoll := .idle
      res := .ready d, seqRdIrq := .store d } rest l₂ d₂) hlive).trans
    (congrArg _ (rdIrqRow_store (d := d) rfl hrxl))
  have hreceive := (exec_rdReceive_running (s := s.withTape { s.radio with
      irqPend := s.radio.irqPend - 1
      spiLog := s.radio.spiLog ++ readyLog s.cfg s.cfg.opcRxLen.bytes [hi, lo]
        ++ readyLog s.cfg s.cfg.opcReadRxFifo.bytes d, seqPoll := .idle
      res := .ready d, rxList := s.radio.rxList ++ [d], seqRdIrq := .idle } rest l₂ d₂) hlc).trans
    (congrArg _ (if_pos hrxl))
  have hrun : execMany [.rdIrqStep, .rdIrqStep, .rdIrqStep, .rdIrqStep, .rdReceive] s = _ :=
    (execMany_cons _ _ _ _ hedge).trans ((execMany_cons _ _ _ _ hlen).trans ((execMany_cons _ _ _ _ hdata).trans
      ((execMany_cons _ _ _ _ hstore).trans (execMany_cons _ _ _ _ hreceive))))
  refine ⟨_, hrun, ?_⟩
  simp [State.withTape, State.answered, State.setRadio, hpend, hidle]

end Sys2Proof.Machine
end

section
/-! PROOFS. The bounds of the scanner, hardware reset, and the state after reset (41_framer.md R186; 70_reset_and_hazards.md R350, R351). -/

namespace Sys2Proof.Machine

/-! ### What a scan keeps and delivers (R42, R43, R186) -/

/-- A payload has as many bytes as its length byte says. -/
theorem length_of_parseSpan {n : Byte} {t p : List Byte} (ht : t.length = n.toNat + 2)
    (h : parseSpan (n :: t) = some p) : p.length = n.toNat := by
  obtain ⟨q, c, rfl, hq⟩ := exists_eq_append_crcTrailer ht
  rw [parseSpan_crcTrailer hq] at h
  split at h
  · cases h; exact hq
  · contradiction

theorem byte_toNat_le (n : Byte) : n.toNat ≤ 255 := Nat.le_of_lt_succ n.isLt

theorem scan_out_length (buf : List Byte) : ∀ p ∈ (scan buf).out, p.length ≤ 255 := by
  induction buf using scan_induction with
  | nil => simp
  | garbage b bs hb ih =>
    rwa [scan_cons_of_ne hb]
  | marker => rw [scan_marker]; simp
  | short n rest h =>
    rw [scan_partial h]; simp
  | span n t rest ht ih =>
    intro p hp
    rw [scan_span ht] at hp
    obtain hp | hp := List.mem_append.1 hp
    · rw [length_of_parseSpan ht (Option.mem_toList.1 hp)]
      exact byte_toNat_le n
    · exact ih p hp

/-- A buffer that waits for the rest of the frame it begins. -/
def WaitsForFrame (buf : List Byte) : Prop :=
  buf.head? = some sof ∧ buf.length ≤ 258
    ∧ ∀ n q, buf = sof :: n :: q → buf.length < 1 + 1 + n.toNat + 2

theorem waitsForFrame_of_short {n : Byte} {rest : List Byte} (h : rest.length < n.toNat + 2) :
    WaitsForFrame (sof :: n :: rest) := by
  have hn := byte_toNat_le n
  refine ⟨rfl, by simp only [List.length_cons]; omega, fun n' q hq => ?_⟩
  cases hq
  simp only [List.length_cons]
  omega

theorem scan_buf_waits (buf : List Byte) : (scan buf).buf = [] ∨ WaitsForFrame (scan buf).buf := by
  induction buf using scan_induction with
  | nil => exact .inl rfl
  | garbage b bs hb ih =>
    rwa [scan_cons_of_ne hb]
  | marker =>
    rw [scan_marker]
    exact .inr ⟨rfl, by decide, by simp⟩
  | short n rest h =>
    rw [scan_partial h]
    exact .inr (waitsForFrame_of_short h)
  | span n t rest ht ih =>
    rwa [scan_span ht]

/-- Settles O12. -/
theorem scanBufferBound : Obligations.ScanBufferBound := by
  unfold Obligations.ScanBufferBound
  exact fun buf => ⟨scan_buf_waits buf, scan_out_length buf⟩

/-! ### Hardware reset (R350, R351) -/

/-- Settles O55. -/
theorem hardResetStep : Obligations.HardResetStep := by
  unfold Obligations.HardResetStep
  intro s rest h
  rw [step_cons h]
  rfl

/-! ### The state after reset meets the invariants -/

theorem uart_reset_scanInv : Uart.reset.ScanInv := ⟨.inl ⟨rfl, rfl⟩, by simp [Uart.reset]⟩

theorem reset_ticketInv : TicketInv State.reset := ⟨List.nodup_nil, by simp [State.reset]⟩

theorem reset_lineOk (i : Nat) : LineOk State.reset i Uart.reset := by
  simp [LineOk, Uart.reset]

theorem reset_lineInv : LineInv State.reset :=
  ⟨reset_ticketInv, fun i _ hu => State.mem_reset_uarts _ (List.mem_of_getElem? hu) ▸ reset_lineOk i,
    by simp [State.reset]⟩

theorem reset_guardInv : GuardInv State.reset := by
  refine ⟨reset_ticketInv, ?_⟩
  simp [State.reset, Radio.reset]

theorem reset_radioDataInv : RadioDataInv State.reset := by
  simp [RadioDataInv, State.reset, Radio.reset, nProps]

theorem reset_handshakeInv : HandshakeInv State.reset := ⟨[], rfl, by simp⟩

/-- Settles O60. -/
theorem resetMeetsInvariants : Obligations.ResetMeetsInvariants := by
  unfold Obligations.ResetMeetsInvariants
  refine ⟨fun u hu => ?_, reset_lineInv, fun u hu => ?_, reset_guardInv, reset_radioDataInv, reset_handshakeInv⟩
  · rw [State.mem_reset_uarts _ hu]
    exact uart_reset_scanInv
  · rw [State.mem_reset_uarts _ hu]
    simp [Uart.reset]

end Sys2Proof.Machine
end

section
/-! PROOFS. What a step can do: the host operation that moves, the row of a UART controller, the row of the radio. The steps themselves are put under these forms below, and every invariant is derived from the forms. -/

namespace Sys2Proof.Machine

/-! ### The host operation that a step moves -/

/-- What becomes of a host operation in a step: at most one is issued, moved to its next row, or ended. -/
inductive OpMove where
  | none
  | answer (r : Response)
  | issue (op : HostOp)
  | move (t : Nat) (op op' : HostOp)
  | finish (t : Nat) (op : HostOp) (r : Response)

/-- The move, made on a state. -/
def OpMove.apply (m : OpMove) (s : State) : State :=
  match m with
  | .none => s
  | .answer r => s.answered r
  | .issue op => s.issued op
  | .move t _ op' => s.setOp t op'
  | .finish t _ r => s.ended t r

/-- The operation that is moved or ended is in progress. -/
def OpMove.Valid (m : OpMove) (s : State) : Prop :=
  match m with
  | .move t op _ | .finish t op _ => s.findOp t = some op
  | .none | .answer _ | .issue _ => True

/-- The operations that the move speaks of are of this kind. -/
def OpMove.Of (m : OpMove) (P : HostOp → Prop) : Prop :=
  match m with
  | .none | .answer _ => True
  | .issue op | .finish _ op _ => P op
  | .move _ op op' => P op ∧ P op'

/-- The operation in progress that the move takes away, or takes on to its next row. -/
def OpMove.source : OpMove → Option (Nat × HostOp)
  | .move t op _ | .finish t op _ => some (t, op)
  | .none | .answer _ | .issue _ => Option.none

/-- The operation that is in progress by the move. -/
def OpMove.target (s : State) : OpMove → Option (Nat × HostOp)
  | .issue op => some (s.nextTicket, op)
  | .move t _ op' => some (t, op')
  | .none | .answer _ | .finish _ _ _ => Option.none

section
variable (m : OpMove) (s : State)

@[simp] theorem OpMove.apply_cfg : (m.apply s).cfg = s.cfg := by cases m <;> rfl
@[simp] theorem OpMove.apply_crc : (m.apply s).crc = s.crc := by cases m <;> rfl
@[simp] theorem OpMove.apply_fbCrc : (m.apply s).fbCrc = s.fbCrc := by cases m <;> rfl
@[simp] theorem OpMove.apply_uarts : (m.apply s).uarts = s.uarts := by cases m <;> rfl
@[simp] theorem OpMove.apply_radio : (m.apply s).radio = s.radio := by cases m <;> rfl

end

/-! ### The operations in progress after a move -/

section
variable {m : OpMove} {s : State}

/-- Tickets tell operations apart. -/
theorem TicketInv.eq_of_ticket (h : TicketInv s) {t : Nat} {op op' : HostOp} (h₁ : (t, op) ∈ s.ops)
    (h₂ : (t, op') ∈ s.ops) : op = op' :=
  congrArg Prod.snd (List.inj_on_of_nodup_map h.1 h₁ h₂ rfl)

/-- An entry with the ticket of an operation in progress is that operation. -/
theorem TicketInv.ticket_ne_iff (h : TicketInv s) {t : Nat} {op : HostOp} (hop : (t, op) ∈ s.ops)
    {e : Nat × HostOp} (he : e ∈ s.ops) : e.1 ≠ t ↔ (t, op) ≠ e := by
  refine not_congr ⟨fun het => ?_, fun hee => hee ▸ rfl⟩
  exact (Prod.ext het (h.eq_of_ticket (op := e.2) (het ▸ he) hop)).symm

/-- What is in progress after a move: what was, without the operation moved or ended, and the one issued or moved. -/
theorem OpMove.mem_apply_ops (hT : TicketInv s) (hv : m.Valid s) (e : Nat × HostOp) :
    e ∈ (m.apply s).ops ↔ (e ∈ s.ops ∧ m.source ≠ some e) ∨ m.target s = some e := by
  cases m with
  | none | answer _ => simp [OpMove.apply, OpMove.source, OpMove.target]
  | issue op => simp [OpMove.apply, OpMove.source, OpMove.target, eq_comm]
  | finish t op r =>
    have hop := s.findOp_mem t op hv
    simp only [OpMove.apply, State.ended_ops, List.mem_filter, OpMove.source, OpMove.target, bne_iff_ne,
      reduceCtorEq, or_false, ne_eq, Option.some.injEq]
    exact and_congr_right fun he => hT.ticket_ne_iff hop he
  | move t op op' =>
    have hop := s.findOp_mem t op hv
    simp only [OpMove.apply, State.setOp, List.mem_map, OpMove.source, OpMove.target, ne_eq, Option.some.injEq]
    constructor
    · rintro ⟨a, ha, rfl⟩
      split_ifs with hat
      · exact .inr rfl
      · exact .inl ⟨ha, (hT.ticket_ne_iff hop ha).1 hat⟩
    · rintro (⟨he, hne⟩ | rfl)
      · exact ⟨e, he, if_neg ((hT.ticket_ne_iff hop he).2 hne)⟩
      · exact ⟨(t, op), hop, if_pos rfl⟩

/-- Tickets stay distinct, and below the counter. -/
theorem TicketInv.apply (hT : TicketInv s) (m : OpMove) : TicketInv (m.apply s) := by
  obtain ⟨hnodup, hlt⟩ := hT
  cases m with
  | none => exact ⟨hnodup, hlt⟩
  | answer r => exact ⟨hnodup, fun e he => Nat.lt_succ_of_lt (hlt e he)⟩
  | issue op =>
    refine ⟨?_, fun e he => ?_⟩
    · rw [OpMove.apply, State.issued_ops, List.map_append]
      refine List.Nodup.append hnodup (List.nodup_singleton _) ?_
      simp only [List.map_cons, List.map_nil, List.disjoint_singleton, List.mem_map, not_exists, not_and]
      exact fun e he heq => absurd (heq ▸ hlt e he) (Nat.lt_irrefl _)
    · obtain he | he := List.mem_append.1 he
      · exact Nat.lt_succ_of_lt (hlt e he)
      · rw [List.mem_singleton.1 he]
        exact Nat.lt_succ_self _
  | finish t op r =>
    exact ⟨hnodup.sublist (List.filter_sublist.map _), fun e he => hlt e (List.mem_of_mem_filter he)⟩
  | move t op op' =>
    have hticket (e : Nat × HostOp) : (if e.1 = t then (t, op') else e).1 = e.1 := by
      split_ifs with h
      · exact h.symm
      · rfl
    refine ⟨?_, fun e he => ?_⟩
    · have hmap : ((OpMove.move t op op').apply s).ops.map Prod.fst = s.ops.map Prod.fst := by
        simp only [OpMove.apply, State.setOp, List.map_map]
        exact List.map_congr_left fun e _ => hticket e
      rwa [hmap]
    · obtain ⟨a, ha, rfl⟩ := List.mem_map.1 he
      rw [hticket]
      exact hlt a ha

/-- Whatever the tickets: what is in progress after a move was so before, or is the move's target. -/
theorem OpMove.mem_of_mem_apply {e : Nat × HostOp} (h : e ∈ (m.apply s).ops) :
    e ∈ s.ops ∨ m.target s = some e := by
  cases m with
  | none | answer _ => exact .inl h
  | issue op =>
    obtain h | h := List.mem_append.1 h
    · exact .inl h
    · exact .inr (congrArg some (List.mem_singleton.1 h).symm)
  | finish t op r => exact .inl (List.mem_of_mem_filter h)
  | move t op op' =>
    obtain ⟨a, ha, rfl⟩ := List.mem_map.1 h
    split_ifs
    · exact .inr rfl
    · exact .inl ha

theorem OpMove.Of.source {P : HostOp → Prop} (hm : m.Of P) {e : Nat × HostOp} (h : m.source = some e) : P e.2 := by
  cases m <;> cases h
  · exact hm.1
  · exact hm

theorem OpMove.Of.target {P : HostOp → Prop} (hm : m.Of P) {e : Nat × HostOp} (h : m.target s = some e) : P e.2 := by
  cases m <;> cases h
  · exact hm
  · exact hm.2

/-- The operations of another kind than the move's are in progress as before. -/
theorem OpMove.mem_apply_ops_of_not {P : HostOp → Prop} (hT : TicketInv s) (hv : m.Valid s) (hm : m.Of P)
    {e : Nat × HostOp} (he : ¬ P e.2) : e ∈ (m.apply s).ops ↔ e ∈ s.ops := by
  have hsource : m.source ≠ some e := fun h => he (hm.source h)
  have htarget : m.target s ≠ some e := fun h => he (hm.target h)
  rw [OpMove.mem_apply_ops hT hv]
  simp [hsource, htarget]

/-- Operations of another kind stay out of progress. -/
theorem OpMove.not_mem_apply_ops {P : HostOp → Prop} {e : Nat × HostOp} (hm : m.Of P) (he : ¬ P e.2)
    (h : e ∉ s.ops) : e ∉ (m.apply s).ops :=
  fun hmem => (OpMove.mem_of_mem_apply hmem).elim h fun htarget => he (hm.target htarget)

theorem OpMove.Of.imp {P Q : HostOp → Prop} (hm : m.Of P) (h : ∀ op, P op → Q op) : m.Of Q := by
  cases m with
  | none | answer _ => trivial
  | issue op => exact h _ hm
  | finish t op r => exact h _ hm
  | move t op op' => exact ⟨h _ hm.1, h _ hm.2⟩

end

/-! ### The rows of a UART controller -/

/-- An operation on controller `i` that only waits for its turn at a queue. -/
def HostOp.WaitsAt (i : Nat) : HostOp → Prop
  | .readFrame j _ | .urWrite j _ | .urRead j => j = i
  | _ => False

/-- The row of a step on UART controller `i`, whose registers are `u` before it: the operation that moves, and the
registers after it. -/
inductive UartRow (s : State) (i : Nat) (u : Uart) : OpMove → Uart → Prop
  | constructFramed (baud : Nat) (r : Response) (hlc : u.lc = .unconstructed) (hbaud : 1 ≤ baud) :
      UartRow s i u (.answer r) (u.constructFramed baud)
  | constructRaw (c : RawConfig) (r : Response) (hlc : u.lc = .unconstructed)
      (hbaud : 1200 ≤ c.baud ∧ c.baud ≤ 2000000) (hbits : 5 ≤ c.databits ∧ c.databits ≤ 9)
      (hstop : 1 ≤ c.stopbits ∧ c.stopbits ≤ 2) : UartRow s i u (.answer r) (u.constructRaw c)
  | queues (m : OpMove) (rxq : List (List Byte)) (txPend rxAcc : List Byte) (hm : m.Of (HostOp.WaitsAt i))
      (hrxq : ∀ p ∈ rxq, p ∈ u.rxq) : UartRow s i u m { u with rxq := rxq, txPend := txPend, rxAcc := rxAcc }
  | ufShutdown (hlc : u.lc = .running) (hm : u.mode = .framed) (hsend : s.sendInProgress i = false) :
      UartRow s i u (.issue (.ufShutdown i .join)) { u with lc := .shut, run := false }
  | ufJoin (t : Nat) : UartRow s i u (.move t (.ufShutdown i .join) (.ufShutdown i .close)) u
  | ufClose (t : Nat) :
      UartRow s i u (.move t (.ufShutdown i .close) (.ufShutdown i .release)) { u with uartOpen := false }
  | ufRelease (t : Nat) (r : Response) :
      UartRow s i u (.finish t (.ufShutdown i .release) r) { u with dir := .released }
  | urShutdown (hlc : u.lc = .running) (hm : u.mode = .raw) :
      UartRow s i u (.issue (.urShutdown i .drain)) { u with lc := .shut }
  | urDrain (t : Nat) : UartRow s i u (.move t (.urShutdown i .drain) (.urShutdown i .flag)) u
  | urFlag (t : Nat) :
      UartRow s i u (.move t (.urShutdown i .flag) (.urShutdown i .join)) { u with shutReq := true }
  | urJoin (t : Nat) (h : u.batchInProgress = false) :
      UartRow s i u (.move t (.urShutdown i .join) (.urShutdown i .close)) u
  | urClose (t : Nat) (r : Response) :
      UartRow s i u (.finish t (.urShutdown i .close) r) { u with uartOpen := false, dir := .released }
  | sendLock (t : Nat) (f : List Byte) (h : u.sendLock = .free) :
      UartRow s i u (.move t (.send i f .waitLock) (.send i f .toTx)) { u with sendLock := .held (.host t) }
  | sendToTx (t : Nat) (f : List Byte) :
      UartRow s i u (.move t (.send i f .toTx) (.send i f (.write 0))) { u with dir := .tx }
  | sendByte (t : Nat) (f : List Byte) (q q' : SendSeq) (b : Byte) (hq : q.transmitting = true)
      (hq' : q'.transmitting = true) : UartRow s i u (.move t (.send i f q) (.send i f q')) (u.tx s.cfg b)
  | sendQuiet (t : Nat) (f : List Byte) (q q' : SendSeq) (hq : q.transmitting = true)
      (hq' : q'.transmitting = true) : UartRow s i u (.move t (.send i f q) (.send i f q')) u
  | sendToRx (t : Nat) (f : List Byte) :
      UartRow s i u (.move t (.send i f .toRx) (.send i f .done)) { u with dir := .rx }
  | sendDone (t : Nat) (f : List Byte) (r : Response) :
      UartRow s i u (.finish t (.send i f .done) r) { u with sendLock := .free }
  | ufRx : UartRow s i u .none u.ufRxStep
  | urTx : UartRow s i u .none (u.urTxStep s.cfg)
  | urRx : UartRow s i u .none u.urRxStep
  | deliver (bs : List Byte) : UartRow s i u .none (u.deliver s.cfg bs)
  | readError : UartRow s i u .none { u with readErr := true }

/-! ### The radio's port -/

/-- A radio step that could take SPILOCK: CLOSED on a closed port, else one block on the log, `log` being the log after
it (44_radio_handshake.md R247). -/
structure PortStep (c : Config) (r : Radio) (cmd : List Byte) (k : Nat) (res : StepRes)
    (log : List (List Byte × List Byte)) : Prop where
  lock : r.spiLock = .free
  log : (r.spiOpen = false ∧ log = r.spiLog)
    ∨ (r.spiOpen = true ∧ ∃ reads, PollReads c k reads ∧ log = r.spiLog ++ stepLog c cmd reads)
  result : (∃ resp, res = .ready resp ∧ resp.length = k) ∨ res = .timeout ∨ res = .closed

/-- The radio after a radio step. -/
def Radio.ported (r : Radio) (log : List (List Byte × List Byte)) (res : StepRes) : Radio :=
  { r with spiLog := log, seqPoll := .idle, res := res }

/-- A radio step waits for SPILOCK, or is a `PortStep`. -/
theorem radioStep_cases (cmd : List Byte) (k : Nat) (s : State) :
    radioStep cmd k s = (.held, s)
    ∨ ∃ res log tape limits d, PortStep s.cfg s.radio cmd k res log
      ∧ radioStep cmd k s = (res, s.withTape (s.radio.ported log res) tape limits d) := by
  by_cases hl : s.radio.spiLock = .free
  · by_cases ho : s.radio.spiOpen = true
    · obtain ⟨res, t, ht, ⟨reads, hreads, hdone⟩, hres, hcases⟩ := radioStep_open cmd k hl ho
      have hradio : t.radio = s.radio.ported (s.radio.spiLog ++ stepLog s.cfg cmd reads) (pollResult s.cfg reads) := by
        rw [hdone]
        rfl
      have hres' : pollResult s.cfg reads = res := by
        rw [← hres, hradio]
        rfl
      refine .inr ⟨res, _, t.spiIn, t.pollLimits, t.draws,
        ⟨hl, .inr ⟨ho, reads, hreads, rfl⟩, hcases.imp_right .inl⟩, ?_⟩
      rw [ht, ← hres']
      exact congrArg _ hdone
    · rw [Bool.not_eq_true] at ho
      exact .inr ⟨.closed, s.radio.spiLog, s.spiIn, s.pollLimits, s.draws, ⟨hl, .inl ⟨ho, rfl⟩, .inr (.inr rfl)⟩,
        radioStep_closed cmd k hl ho⟩
  · exact .inl (radioStep_held cmd k hl)

/-! ### The rows of the radio -/

/-- The packets are of legal size (45_radio_txrx.md R280). -/
def PacketsFit (ps : List (List Byte)) : Prop := ∀ p ∈ ps, 1 ≤ p.length ∧ p.length ≤ 64

/-- The bounds on the radio's registers. -/
def Radio.Bounded (r : Radio) : Prop :=
  PacketsFit r.txq ∧ PacketsFit r.txBatchR ∧ (∀ p ∈ r.rxList, p.length ≤ 65535)
  ∧ (∀ n, r.seqRdIrq = .data n → n ≤ 65535) ∧ (∀ d, r.seqRdIrq = .store d → d.length ≤ 65535)
  ∧ r.props.length = 31 ∧ r.txqLock = .free ∧ r.rxlLock = .free ∧ r.seqPoll = .idle

/-- The row of a step of RD.CONSTRUCT or RD.SHUTDOWN: the operation that moves, and the radio's registers after it. -/
inductive LifeRow (e : Stimulus) (s : State) : OpMove → Radio → Prop
  | guard (ch : Word16) (ps : List PropRecord) (h : s.radio.alloc = false) :
      LifeRow e s (.issue (.rdConstruct ch ps)) s.radio.takeGuard
  | badConfig (t : Nat) (ch : Word16) (ps : List PropRecord) (r : Response) (hq : s.radio.seqCons = .s1Parse) :
      LifeRow e s (.finish t (.rdConstruct ch ps) r) s.radio.undoGuard
  | configure (t : Nat) (ch : Word16) (ps : List PropRecord) (c : Byte) (hop : (t, .rdConstruct ch ps) ∈ s.ops)
      (hq : s.radio.seqCons = .s1Parse) (hps : ps.length = 31) : LifeRow e s .none (s.radio.configure s.cfg c ps)
  | pulse (t : Nat) (ch : Word16) (ps : List PropRecord) (spiOpen : Bool) (rst : RstLine) (q : ConsSeq)
      (hop : (t, .rdConstruct ch ps) ∈ s.ops) (hq : s.radio.seqCons.beforeIrq = true) (hq' : q.beforeIrq = true) :
      LifeRow e s .none { s.radio with spiOpen := spiOpen, rst := rst, seqCons := q }
  | command (t : Nat) (b : Bool) (ch : Word16) (ps : List PropRecord) (cmd : List Byte) (st : HandshakeStep)
      (q : ConsSeq) (res : StepRes) (log : List (List Byte × List Byte)) (he : e = .resume t b)
      (hop : s.findOp t = some (.rdConstruct ch ps)) (hrow : consRow s = some (cmd, st, q))
      (hp : PortStep s.cfg s.radio cmd 0 res log) : LifeRow e s .none { s.radio.ported log res with seqCons := q }
  | fail (t : Nat) (b : Bool) (ch : Word16) (ps : List PropRecord) (cmd : List Byte) (st : HandshakeStep)
      (q : ConsSeq) (res : StepRes) (log : List (List Byte × List Byte)) (rst : RstLine) (spiOpen : Bool)
      (r : Response)
      (he : e = .resume t b) (hop : s.findOp t = some (.rdConstruct ch ps))
      (hrow : consRow s = some (cmd, st, q)) (hp : PortStep s.cfg s.radio cmd 0 res log) :
      LifeRow e s (.finish t (.rdConstruct ch ps) r)
        { s.radio.ported log res with
          irqEn := false, lc := .failed, seqCons := .failed, rst := rst, spiOpen := spiOpen }
  | irqOn (t : Nat) (ch : Word16) (ps : List PropRecord) (hop : (t, .rdConstruct ch ps) ∈ s.ops)
      (hq : s.radio.seqCons = .s7Irq) :
      LifeRow e s .none { s.radio with irqPend := 0, irqEn := true, seqCons := .s8Rx }
  | start (t : Nat) (ch : Word16) (ps : List PropRecord) (r : Response) (hq : s.radio.seqCons = .s9Start) :
      LifeRow e s (.finish t (.rdConstruct ch ps) r)
        { s.radio with seqRdTx := .wait, lc := .running, seqCons := .done }
  | shutdown (hlc : s.radio.lc = .running) :
      LifeRow e s (.issue (.rdShutdown .drain)) { s.radio with lc := .shut }
  | drain (t : Nat) : LifeRow e s (.move t (.rdShutdown .drain) (.rdShutdown .flag)) s.radio
  | flag (t : Nat) :
      LifeRow e s (.move t (.rdShutdown .flag) (.rdShutdown .lock)) { s.radio with shutdown := true }
  | lock (t : Nat) (h : s.radio.spiLock = .free) :
      LifeRow e s (.move t (.rdShutdown .lock) (.rdShutdown .close)) { s.radio with spiLock := .held (.host t) }
  | close (t : Nat) :
      LifeRow e s (.move t (.rdShutdown .close) (.rdShutdown .finish)) { s.radio with
        irqEn := false, irqPend := 0, rst := .released, spiOpen := false, spiLock := .free }
  | finish (t : Nat) (r : Response) :
      LifeRow e s (.finish t (.rdShutdown .finish) r) { s.radio with txq := [], alloc := false }

/-- An operation of the radio's traffic. -/
def HostOp.IsTraffic : HostOp → Prop
  | .rdTransmit _ | .rdReceive => True
  | _ => False

/-- A step of the radio's traffic leaves its lifecycle alone, makes at most one radio step, and keeps the bounds of the
radio's data. -/
structure TrafficRow (s : State) (m : OpMove) (r : Radio) : Prop where
  ops : m.Of HostOp.IsTraffic
  fits : ∀ x t ps, m.target x = some (t, .rdTransmit ps) → PacketsFit ps
  life : r.lc = s.radio.lc ∧ r.alloc = s.radio.alloc ∧ r.irqEn = s.radio.irqEn ∧ r.spiLock = s.radio.spiLock
    ∧ r.seqCons = s.radio.seqCons
  log : r.spiLog = s.radio.spiLog
    ∨ ((s.radio.lc = .constructing → s.radio.irqEn = true) ∧ s.radio.spiOpen = true ∧ s.radio.spiLock = .free
      ∧ ∃ cmd k reads, PollReads s.cfg k reads ∧ r.spiLog = s.radio.spiLog ++ stepLog s.cfg cmd reads)
  bounded : (∀ t ps, (t, HostOp.rdTransmit ps) ∈ s.ops → PacketsFit ps) → s.radio.Bounded → r.Bounded

/-! ### The forms of a step -/

/-- What the stimulus `e` can make of the state `s`. -/
inductive Effect (e : Stimulus) (s : State) : State → Prop
  | idle : Effect e s s
  | answer (r : Response) : Effect e s (s.answered r)
  | send (i : Nat) (f : List Byte) (u : Uart) (hu : s.uarts[i]? = some u) (hlc : u.lc = .running)
      (hm : u.mode = .framed) : Effect e s (s.issued (.send i f .waitLock))
  | crc (w : List Byte) (c : Word16) (r : Response) (he : e = .issue w)
      (hw : decodeHost w = .ok .crcInit ∨ ∃ b, decodeHost w = .ok (.crcUpdate b)) :
      Effect e s ((s.setCrc c).answered r)
  | uart (i : Nat) (u v : Uart) (m : OpMove) (hi : e.touches s = some i) (hu : s.uarts[i]? = some u)
      (hv : m.Valid s) (hrow : UartRow s i u m v) : Effect e s (m.apply (s.setUart i v))
  | life (m : OpMove) (r : Radio) (tape : List Byte) (limits : List Nat) (d : Nat) (hi : e.touches s = none)
      (hv : m.Valid s) (hrow : LifeRow e s m r) : Effect e s (m.apply (s.withTape r tape limits d))
  | traffic (m : OpMove) (r : Radio) (tape : List Byte) (limits : List Nat) (d : Nat) (hi : e.touches s = none)
      (hv : m.Valid s) (hrow : TrafficRow s m r) : Effect e s (m.apply (s.withTape r tape limits d))
  | hardReset (he : e = .hardReset) : Effect e s s.hardReset

end Sys2Proof.Machine
end

section
/-! PROOFS. The steps of the UART controllers have the forms of `UartRow` (42_uart_framed.md, 43_uart_raw.md). -/

namespace Sys2Proof.Machine

section
variable {e : Stimulus} {s t : State} {i : Nat} {u : Uart}

theorem Effect.of_row {v : Uart} {m : OpMove} (hi : e.touches s = some i) (hu : s.uarts[i]? = some u) (hv : m.Valid s)
    (hrow : UartRow s i u m v) (ht : t = m.apply (s.setUart i v)) : Effect e s t :=
  ht ▸ .uart i u v m hi hu hv hrow

/-- A row that leaves the controller as it is. -/
theorem Effect.of_still_row {m : OpMove} (hi : e.touches s = some i) (hu : s.uarts[i]? = some u) (hv : m.Valid s)
    (hrow : UartRow s i u m u) (ht : t = m.apply s) : Effect e s t :=
  .of_row hi hu hv hrow (by rw [ht, s.setUart_self i u hu])

/-- A waiting operation moves, and the controller stays as it is. -/
theorem UartRow.wait (s : State) {m : OpMove} (hm : m.Of (HostOp.WaitsAt i)) : UartRow s i u m u :=
  .queues m u.rxq u.txPend u.rxAcc hm fun _ h => h

end

/-! ### Operations as they are issued -/

section
variable {s t : State} {u : Uart} {k : Out} {m : Mode}

/-- The lifecycle and mode test answers, or lets the operation go on. -/
theorem whenReady_next (h : whenReady m s.nextTicket u s.accept k = .next t) :
    (∃ r, t = s.answered r) ∨ (u.lc = .running ∧ u.mode = m ∧ k = .next t) := by
  by_cases hr : u.lc = .running ∧ u.mode = m
  · rw [whenReady_yes _ _ _ _ _ hr.1 hr.2] at h
    exact .inr ⟨hr.1, hr.2, h⟩
  · rw [whenReady_no _ _ _ _ (not_and_or.1 hr)] at h
    cases h
    exact .inl ⟨_, rfl⟩

theorem whenBytes_next (h : whenBytes u k = .next t) : u.databits = 8 ∧ k = .next t := by
  unfold whenBytes at h
  split at h
  · next hbits => exact ⟨hbits, h⟩
  · contradiction

end

/-- A configuration that is accepted is legal. -/
theorem checkRawConfig_legal {baud : Word32} {d st p : Byte} {c : RawConfig}
    (h : checkRawConfig baud d st p = .ok c) : (1200 ≤ c.baud ∧ c.baud ≤ 2000000)
      ∧ (5 ≤ c.databits ∧ c.databits ≤ 9) ∧ (1 ≤ c.stopbits ∧ c.stopbits ≤ 2) := by
  unfold checkRawConfig at h
  split at h
  · contradiction
  next hbaud =>
    split at h
    · contradiction
    next hbits =>
      split at h
      · contradiction
      next hstop =>
        split at h
        · cases h
          exact ⟨outside_iff.not_left.1 hbaud, outside_iff.not_left.1 hbits, outside_iff.not_left.1 hstop⟩
        · contradiction

section
variable {e : Stimulus} {s t : State} {inst : Byte}

/-- An operation on a controller that does not exist is answered. -/
theorem effect_missing (hu : s.uarts[inst.toNat]? = none) {i : Instr}
    (hi : (∃ b, i = .ufConstruct inst b) ∨ (∃ p, i = .ufSend inst p) ∨ (∃ t, i = .ufReadFrame inst t)
      ∨ i = .ufShutdown inst ∨ (∃ b d st p, i = .urConstruct inst b d st p) ∨ (∃ d, i = .urWrite inst d)
      ∨ i = .urRead inst ∨ i = .urShutdown inst) (h : exec i s = .next t) : Effect e s t := by
  obtain ⟨-, -, -, hmissing⟩ := illegalWord
  have hexec := hmissing s inst (List.getElem?_eq_none_iff.1 hu) i hi
  rw [hexec] at h
  cases h
  exact .answer _

theorem effect_ufSend {p : List Byte} (h : exec (.ufSend inst p) s = .next t) : Effect e s t := by
  cases hu : s.uarts[inst.toNat]? with
  | none => exact effect_missing hu (.inr (.inl ⟨p, rfl⟩)) h
  | some u =>
    rw [exec_ufSend hu] at h
    obtain ⟨r, rfl⟩ | ⟨hlc, hm, h⟩ := whenReady_next h
    · exact .answer r
    · split at h <;> cases h
      · exact .send _ _ u hu hlc hm
      · exact .answer _

variable (hi : e.touches s = some inst.toNat)
include hi

theorem effect_ufConstruct {baud : Word32} (h : exec (.ufConstruct inst baud) s = .next t) : Effect e s t := by
  cases hu : s.uarts[inst.toNat]? with
  | none => exact effect_missing hu (.inl ⟨baud, rfl⟩) h
  | some u =>
    by_cases hlc : u.lc = .unconstructed
    · by_cases hb : baud = 0
      · rw [hb, exec_ufConstruct_config hu hlc checkFramedBaud_zero] at h
        cases h
        exact .answer _
      · rw [exec_ufConstruct_ok hu hlc (checkFramedBaud_ok hb)] at h
        cases h
        have hpos : 1 ≤ baud.toNat := Nat.one_le_iff_ne_zero.2 fun h0 => hb (BitVec.eq_of_toNat_eq h0)
        exact .of_row hi hu (by trivial) (.constructFramed _ _ hlc hpos) rfl
    · rw [exec_ufConstruct_state hu hlc] at h
      cases h
      exact .answer _

theorem effect_urConstruct {baud : Word32} {d st p : Byte} (h : exec (.urConstruct inst baud d st p) s = .next t) :
    Effect e s t := by
  cases hu : s.uarts[inst.toNat]? with
  | none => exact effect_missing hu (.inr (.inr (.inr (.inr (.inl ⟨baud, d, st, p, rfl⟩))))) h
  | some u =>
    by_cases hlc : u.lc = .unconstructed
    · cases hc : checkRawConfig baud d st p with
      | error f =>
        rw [exec_urConstruct_config hu hlc hc] at h
        cases h
        exact .answer _
      | ok c =>
        rw [exec_urConstruct_ok hu hlc hc] at h
        cases h
        obtain ⟨hbaud, hbits, hstop⟩ := checkRawConfig_legal hc
        exact .of_row hi hu (by trivial) (.constructRaw c _ hlc hbaud hbits hstop) rfl
    · rw [exec_urConstruct_state hu hlc] at h
      cases h
      exact .answer _

theorem effect_ufReadFrame {timeout : Option Word32} (h : exec (.ufReadFrame inst timeout) s = .next t) :
    Effect e s t := by
  cases hu : s.uarts[inst.toNat]? with
  | none => exact effect_missing hu (.inr (.inr (.inl ⟨timeout, rfl⟩))) h
  | some u =>
    rw [exec_ufReadFrame hu] at h
    obtain ⟨r, rfl⟩ | ⟨-, -, h⟩ := whenReady_next h
    · exact .answer r
    cases hq : u.rxq with
    | cons p rest =>
      rw [popFrame_cons _ hq] at h
      cases h
      refine .of_row hi hu (m := .answer (.ok (.opt (some p)))) trivial
        (.queues _ rest u.txPend u.rxAcc (by trivial) fun q hmem => ?_) rfl
      rw [hq]
      exact List.mem_cons_of_mem p hmem
    | nil =>
      rw [popFrame_nil _ hq] at h
      simp only at h
      split at h <;> cases h
      · exact .answer _
      · exact .of_still_row hi hu (m := .issue _) (by trivial) (.wait s (by exact rfl)) rfl

theorem effect_ufShutdown (h : exec (.ufShutdown inst) s = .next t) : Effect e s t := by
  cases hu : s.uarts[inst.toNat]? with
  | none => exact effect_missing hu (.inr (.inr (.inr (.inl rfl)))) h
  | some u =>
    rw [exec_ufShutdown hu] at h
    split at h
    · contradiction
    obtain ⟨r, rfl⟩ | ⟨hlc, hm, h⟩ := whenReady_next h
    · exact .answer r
    · split at h
      · contradiction
      · next hsend =>
        cases h
        exact .of_row hi hu (by trivial) (.ufShutdown hlc hm (Bool.eq_false_iff.2 hsend)) rfl

theorem effect_urWrite {d : List Byte} (h : exec (.urWrite inst d) s = .next t) : Effect e s t := by
  cases hu : s.uarts[inst.toNat]? with
  | none => exact effect_missing hu (.inr (.inr (.inr (.inr (.inr (.inl ⟨d, rfl⟩)))))) h
  | some u =>
    rw [exec_urWrite hu] at h
    obtain ⟨r, rfl⟩ | ⟨-, -, h⟩ := whenReady_next h
    · exact .answer r
    obtain ⟨-, h⟩ := whenBytes_next h
    by_cases hl : u.txLock = .free
    · rw [appendPending_free _ _ _ hl] at h
      cases h
      exact .of_row hi hu (m := .answer (.ok .none)) trivial
        (.queues _ u.rxq (u.txPend ++ d) u.rxAcc (by trivial) fun _ h => h) rfl
    · rw [appendPending_taken _ _ _ hl] at h
      cases h
      exact .of_still_row hi hu (m := .issue _) (by trivial) (.wait s (by exact rfl)) rfl

theorem effect_urRead (h : exec (.urRead inst) s = .next t) : Effect e s t := by
  cases hu : s.uarts[inst.toNat]? with
  | none => exact effect_missing hu (.inr (.inr (.inr (.inr (.inr (.inr (.inl rfl))))))) h
  | some u =>
    rw [exec_urRead hu] at h
    obtain ⟨r, rfl⟩ | ⟨-, -, h⟩ := whenReady_next h
    · exact .answer r
    obtain ⟨-, h⟩ := whenBytes_next h
    by_cases hl : u.rxLock = .free
    · rw [drainReceived_free _ _ hl] at h
      cases h
      exact .of_row hi hu (m := .answer (.ok (.bytes u.rxAcc))) trivial
        (.queues _ u.rxq u.txPend [] (by trivial) fun _ h => h) rfl
    · rw [drainReceived_taken _ _ hl] at h
      cases h
      exact .of_still_row hi hu (m := .issue _) (by trivial) (.wait s (by exact rfl)) rfl

theorem effect_urShutdown (h : exec (.urShutdown inst) s = .next t) : Effect e s t := by
  cases hu : s.uarts[inst.toNat]? with
  | none => exact effect_missing hu (.inr (.inr (.inr (.inr (.inr (.inr (.inr rfl))))))) h
  | some u =>
    rw [exec_urShutdown hu] at h
    split at h
    · contradiction
    obtain ⟨r, rfl⟩ | ⟨hlc, hm, h⟩ := whenReady_next h
    · exact .answer r
    · cases h
      exact .of_row hi hu (by trivial) (.urShutdown hlc hm) rfl

/-! ### Agents and the line -/

theorem effect_ufRx (h : exec (.ufRxStep inst) s = .next t) : Effect e s t := by
  cases hu : s.uarts[inst.toNat]? with
  | none =>
    simp only [exec, execUfRxStep, hu] at h
    cases h
    exact .idle
  | some u =>
    rw [exec_ufRxStep hu] at h
    cases h
    exact .of_row hi hu (by trivial) .ufRx rfl

theorem effect_urTx (h : exec (.urTxStep inst) s = .next t) : Effect e s t := by
  cases hu : s.uarts[inst.toNat]? with
  | none =>
    simp only [exec, execUrTxStep, hu] at h
    cases h
    exact .idle
  | some u =>
    simp only [exec, execUrTxStep, hu] at h
    split at h
    · cases h
      exact .idle
    · obtain ⟨-, h⟩ := whenBytes_next h
      cases h
      exact .of_row hi hu (by trivial) .urTx rfl

theorem effect_urRx (h : exec (.urRxStep inst) s = .next t) : Effect e s t := by
  cases hu : s.uarts[inst.toNat]? with
  | none =>
    simp only [exec, execUrRxStep, hu] at h
    cases h
    exact .idle
  | some u =>
    simp only [exec, execUrRxStep, hu] at h
    split at h
    · cases h
      exact .idle
    · obtain ⟨-, h⟩ := whenBytes_next h
      cases h
      exact .of_row hi hu (by trivial) .urRx rfl

theorem effect_lineBytes (bs : List Byte) : Effect e s (lineBytes inst bs s) := by
  cases hu : s.uarts[inst.toNat]? with
  | none =>
    rw [lineBytes_none hu]
    exact .idle
  | some u =>
    simp only [lineBytes, hu]
    exact .of_row hi hu (by trivial) (.deliver bs) rfl

theorem effect_lineError : Effect e s (lineError inst s) := by
  cases hu : s.uarts[inst.toNat]? with
  | none =>
    simp only [lineError, hu]
    exact .idle
  | some u =>
    simp only [lineError, hu]
    exact .of_row hi hu (by trivial) .readError rfl

end

/-! ### Later rows -/

section
variable {e : Stimulus} {s t : State} {tk i : Nat} {b : Bool} {u : Uart} (hi : e.touches s = some i)
  (hu : s.uarts[i]? = some u)
include hi hu

theorem effect_sendStep {f : List Byte} {q : SendSeq} (hop : s.findOp tk = some (.send i f q)) :
    Effect e s (sendStep tk i f q u s) := by
  cases q with
  | idle => exact .idle
  | waitLock =>
    by_cases hl : u.sendLock = .free
    · exact .of_row hi hu (by exact hop) (.sendLock tk f hl) (sendStep_waitLock_free hl)
    · rw [sendStep_waitLock_taken hl]
      exact .idle
  | toTx => exact .of_row hi hu (by exact hop) (.sendToTx tk f) rfl
  | write k =>
    cases hx : f[k]? with
    | none =>
      refine .of_still_row hi hu (by exact hop) (.sendQuiet tk f (.write k) .flush rfl rfl) ?_
      simp only [sendStep, hx, OpMove.apply]
    | some x =>
      refine .of_row hi hu (by exact hop) (.sendByte tk f (.write k) _ x rfl ?_) (sendStep_write hx)
      split <;> rfl
  | flush => exact .of_still_row hi hu (by exact hop) (.sendQuiet tk f .flush .hold rfl rfl) rfl
  | hold => exact .of_still_row hi hu (by exact hop) (.sendQuiet tk f .hold .toRx rfl rfl) rfl
  | toRx => exact .of_row hi hu (by exact hop) (.sendToRx tk f) rfl
  | done => exact .of_row hi hu (by exact hop) (.sendDone tk f _) rfl

theorem effect_readFrameStep {bounded : Bool} (hop : s.findOp tk = some (.readFrame i bounded)) :
    Effect e s (readFrameStep tk i bounded b u s) := by
  unfold readFrameStep
  cases hq : u.rxq with
  | cons p rest =>
    rw [popFrame_cons _ hq]
    refine .of_row hi hu (m := .finish tk _ (.ok (.opt (some p)))) (by exact hop)
      (.queues _ rest u.txPend u.rxAcc (by exact rfl) fun q hmem => ?_) rfl
    rw [hq]
    exact List.mem_cons_of_mem p hmem
  | nil =>
    rw [popFrame_nil _ hq]
    simp only
    split_ifs
    · exact .of_still_row hi hu (m := .finish tk _ (.ok (.opt none))) (by exact hop) (.wait s (by exact rfl)) rfl
    · exact .idle

theorem effect_ufShutdownStep {st : UfShut} (hop : s.findOp tk = some (.ufShutdown i st)) :
    Effect e s (ufShutdownStep tk i st b u s) := by
  cases st with
  | join =>
    rw [ufShutdownStep]
    split_ifs
    · exact .of_still_row hi hu (by exact hop) (.ufJoin tk) rfl
    · exact .idle
  | close => exact .of_row hi hu (by exact hop) (.ufClose tk) rfl
  | release => exact .of_row hi hu (by exact hop) (.ufRelease tk _) rfl

theorem effect_urWriteStep {d : List Byte} (hop : s.findOp tk = some (.urWrite i d)) :
    Effect e s (urWriteStep tk i d u s) := by
  unfold urWriteStep
  by_cases hl : u.txLock = .free
  · rw [appendPending_free _ _ _ hl]
    exact .of_row hi hu (m := .finish tk _ (.ok .none)) (by exact hop)
      (.queues _ u.rxq (u.txPend ++ d) u.rxAcc (by exact rfl) fun _ h => h) rfl
  · rw [appendPending_taken _ _ _ hl]
    exact .idle

theorem effect_urReadStep (hop : s.findOp tk = some (.urRead i)) : Effect e s (urReadStep tk i u s) := by
  unfold urReadStep
  by_cases hl : u.rxLock = .free
  · rw [drainReceived_free _ _ hl]
    exact .of_row hi hu (m := .finish tk _ (.ok (.bytes u.rxAcc))) (by exact hop)
      (.queues _ u.rxq u.txPend [] (by exact rfl) fun _ h => h) rfl
  · rw [drainReceived_taken _ _ hl]
    exact .idle

theorem effect_urShutdownStep {st : UrShut} (hop : s.findOp tk = some (.urShutdown i st))
    (h : urShutdownStep tk i st b u s = .next t) : Effect e s t := by
  cases st with
  | drain =>
    simp only [urShutdownStep] at h
    split at h <;> cases h
    · exact .of_still_row hi hu (by exact hop) (.urDrain tk) rfl
    · exact .idle
  | flag =>
    cases h
    exact .of_row hi hu (by exact hop) (.urFlag tk) rfl
  | join =>
    simp only [urShutdownStep] at h
    split at h
    · next hstop =>
      cases h
      have htx : u.seqUrTx = .stopped := by simpa using (Bool.and_eq_true_iff.1 hstop).1
      exact .of_still_row hi hu (by exact hop) (.urJoin tk (by simp [Uart.batchInProgress, htx])) rfl
    · split at h
      · split at h
        · contradiction
        · next hbatch =>
          cases h
          exact .of_still_row hi hu (by exact hop) (.urJoin tk (Bool.eq_false_iff.2 hbatch)) rfl
      · cases h
        exact .idle
  | close =>
    cases h
    exact .of_row hi hu (by exact hop) (.urClose tk _) rfl

end

end Sys2Proof.Machine
end

section
/-! PROOFS. The steps of the radio have the forms of `LifeRow` and `TrafficRow`, and so every step has one of the forms of `Effect` (44_radio_handshake.md, 45_radio_txrx.md, 20_memory.md R102). -/

namespace Sys2Proof.Machine

section
variable {e : Stimulus} {s t : State}

theorem Effect.of_life {m : OpMove} {r : Radio} (hi : e.touches s = none) (hv : m.Valid s) (hrow : LifeRow e s m r)
    (ht : t = m.apply (s.setRadio r)) : Effect e s t :=
  ht ▸ .life m r s.spiIn s.pollLimits s.draws hi hv hrow

theorem Effect.of_traffic {m : OpMove} {r : Radio} (hi : e.touches s = none) (hv : m.Valid s)
    (hrow : TrafficRow s m r) (ht : t = m.apply (s.setRadio r)) : Effect e s t :=
  ht ▸ .traffic m r s.spiIn s.pollLimits s.draws hi hv hrow

end

/-! ### Construction -/

section
variable {e : Stimulus} {s t : State} {tk : Nat} {b : Bool} {ch : Word16} {ps : List PropRecord}

theorem effect_rdConstruct (hi : e.touches s = none) (h : exec (.rdConstruct ch ps) s = .next t) : Effect e s t := by
  by_cases ha : s.radio.alloc = true
  · rw [exec_rdConstruct_taken ch ps ha] at h
    cases h
    exact .answer _
  · rw [Bool.not_eq_true] at ha
    rw [exec_rdConstruct_free ch ps ha] at h
    cases h
    exact .of_life hi (by trivial) (.guard ch ps ha) rfl

variable (he : e = .resume tk b) (hi : e.touches s = none) (hop : s.findOp tk = some (.rdConstruct ch ps))
include he hi hop

/-- A row that issues a command. -/
theorem effect_consStep_command {cmd : List Byte} {st : HandshakeStep} {q : ConsSeq}
    (hrow : consRow s = some (cmd, st, q)) : Effect e s (consStep tk ch ps s) := by
  rw [consStep_command hrow]
  obtain hheld | ⟨res, log, tape, limits, d, hp, hstep⟩ := radioStep_cases cmd 0 s
  · rw [hheld]
    exact .idle
  · rw [hstep]
    obtain ⟨resp, rfl, -⟩ | hfail := hp.result
    · rw [consAfter_ready]
      exact .life .none _ tape limits d hi trivial (.command tk b ch ps cmd st q _ log he hop hrow hp)
    · obtain ⟨rst, spiOpen, hend⟩ := consAfter_fail (t := tk) (s := s) (st := st) (next := q)
        (s1 := s.withTape (s.radio.ported log res) tape limits d) hfail
      rw [hend]
      exact .life (.finish tk _ _) _ tape limits (d + 1) hi hop
        (.fail tk b ch ps cmd st q res log rst spiOpen (.error (.handshake st)) he hop hrow hp)

theorem effect_consStep : Effect e s (consStep tk ch ps s) := by
  have hmem := s.findOp_mem tk _ hop
  cases hrow : consRow s with
  | some row => exact effect_consStep_command he hi hop hrow
  | none =>
    cases hq : s.radio.seqCons with
    | s0Guard | done | failed =>
      simp only [consStep, hq]
      exact .idle
    | s1Parse =>
      cases hc : checkRadioConfig ch ps with
      | error f => exact .of_life hi (by exact hop) (.badConfig tk ch ps _ hq) (consStep_parse_error hq hc)
      | ok c =>
        have hps : ps.length = 31 := by
          rw [checkRadioConfig_eq] at hc
          split at hc
          · contradiction
          · split at hc
            · contradiction
            · next hn => exact not_not.1 hn
        exact .of_life hi (by trivial) (.configure tk ch ps c hmem hq hps) (consStep_parse_ok hq hc)
    | s2Reset p =>
      have hpulse (spiOpen : Bool) (rst : RstLine) (q : ConsSeq) (hq' : q.beforeIrq = true) :
          LifeRow e s .none { s.radio with spiOpen := spiOpen, rst := rst, seqCons := q } :=
        .pulse tk ch ps spiOpen rst q hmem (by rw [hq]; rfl) hq'
      cases p with
      | assert => exact .of_life hi (by trivial) (hpulse true .asserted (.s2Reset .hold) rfl) (consStep_assert hq)
      | hold => exact .of_life hi (by trivial) (hpulse _ _ (.s2Reset .release) rfl) (consStep_hold hq)
      | release =>
        exact .of_life hi (by trivial) (hpulse _ .deasserted (.s2Reset .settle) rfl) (consStep_release hq)
      | settle => exact .of_life hi (by trivial) (hpulse _ _ .s3PowerUp rfl) (consStep_settle hq)
    | s5Prop i =>
      refine .of_life hi (by trivial)
        (.pulse tk ch ps s.radio.spiOpen s.radio.rst (.s6Int 0) hmem (by rw [hq]; rfl) rfl) ?_
      cases hp : s.radio.props[i]? with
      | some p => simp [consRow, hq, hp] at hrow
      | none =>
        simp only [consStep, hq, hp]
        rfl
    | s6Int i =>
      refine .of_life hi (by trivial)
        (.pulse tk ch ps s.radio.spiOpen s.radio.rst .s7Irq hmem (by rw [hq]; rfl) rfl) ?_
      cases hp : s.cfg.intOverrides[i]? with
      | some p => simp [consRow, hq, hp] at hrow
      | none =>
        simp only [consStep, hq, hp]
        rfl
    | s7Irq => exact .of_life hi (by trivial) (.irqOn tk ch ps hmem hq) (consStep_irq hq)
    | s9Start => exact .of_life hi (by exact hop) (.start tk ch ps _ hq) (consStep_start hq)
    | s3PowerUp | s4Gpio | s8Rx => simp [consRow, hq] at hrow

end

/-! ### Shutdown -/

section
variable {e : Stimulus} {s t : State} {tk : Nat} {b : Bool} (hi : e.touches s = none)
include hi

theorem effect_rdShutdown (h : exec .rdShutdown s = .next t) : Effect e s t := by
  by_cases hlc : s.radio.lc = .running
  · rw [exec_rdShutdown_running hlc] at h
    cases h
    exact .of_life hi (by trivial) (.shutdown hlc) rfl
  · rw [exec_rdShutdown_state hlc] at h
    cases h
    exact .answer _

theorem effect_rdShutdownStep {st : RdShut} (hop : s.findOp tk = some (.rdShutdown st)) :
    Effect e s (rdShutdownStep tk st b s) := by
  cases st with
  | drain =>
    rw [rdShutdownStep]
    split_ifs
    · exact .of_life hi (by exact hop) (.drain tk) rfl
    · exact .idle
  | flag => exact .of_life hi (by exact hop) (.flag tk) rfl
  | lock =>
    by_cases hl : s.radio.spiLock = .free
    · exact .of_life hi (by exact hop) (.lock tk hl) (rdShutdownStep_lock hl)
    · rw [rdShutdownStep_lock_wait hl]
      exact .idle
  | close => exact .of_life hi (by exact hop) (.close tk) rfl
  | finish => exact .of_life hi (by exact hop) (.finish tk _) rfl

end

/-! ### The queues of the radio -/

section
variable {e : Stimulus} {s t : State} {tk : Nat} (hi : e.touches s = none)

theorem PacketsFit.append {ps qs : List (List Byte)} (hp : PacketsFit ps) (hq : PacketsFit qs) :
    PacketsFit (ps ++ qs) :=
  List.forall_mem_append.2 ⟨hp, hq⟩

/-- Packets join TXQ, as `RD.TRANSMIT` is answered or ends. -/
theorem TrafficRow.append {m : OpMove} {ps : List (List Byte)} (hm : m.Of HostOp.IsTraffic)
    (htarget : ∀ x, m.target x = none)
    (hps : (∀ t qs, (t, HostOp.rdTransmit qs) ∈ s.ops → PacketsFit qs) → PacketsFit ps) :
    TrafficRow s m { s.radio with txq := s.radio.txq ++ ps } where
  ops := hm
  fits x t qs h := absurd ((htarget x).symm.trans h) (by simp)
  life := ⟨rfl, rfl, rfl, rfl, rfl⟩
  log := .inl rfl
  bounded hops h := ⟨h.1.append (hps hops), h.2⟩

/-- RXLIST is taken, as `RD.RECEIVE` is answered or ends. -/
theorem TrafficRow.drain {m : OpMove} (hm : m.Of HostOp.IsTraffic) (htarget : ∀ x, m.target x = none) :
    TrafficRow s m { s.radio with rxList := [] } where
  ops := hm
  fits x t qs h := absurd ((htarget x).symm.trans h) (by simp)
  life := ⟨rfl, rfl, rfl, rfl, rfl⟩
  log := .inl rfl
  bounded hops h := by
    obtain ⟨htxq, hbatch, -, hrest⟩ := h
    exact ⟨htxq, hbatch, by simp, hrest⟩

/-- An operation waits, and the radio stays as it is. -/
theorem TrafficRow.wait {op : HostOp} (hop : op.IsTraffic) (hps : ∀ ps, op = .rdTransmit ps → PacketsFit ps) :
    TrafficRow s (.issue op) s.radio where
  ops := hop
  fits _ _ ps h := hps ps (by cases h; rfl)
  life := ⟨rfl, rfl, rfl, rfl, rfl⟩
  log := .inl rfl
  bounded _ h := h

/-- The row of an agent or of the IRQ input that leaves the port alone. -/
theorem TrafficRow.of_quiet {r : Radio}
    (hlife : r.lc = s.radio.lc ∧ r.alloc = s.radio.alloc ∧ r.irqEn = s.radio.irqEn ∧ r.spiLock = s.radio.spiLock
      ∧ r.seqCons = s.radio.seqCons)
    (hlog : r.spiLog = s.radio.spiLog) (hb : s.radio.Bounded → r.Bounded) : TrafficRow s .none r :=
  ⟨trivial, by simp [OpMove.target], hlife, .inl hlog, fun _ => hb⟩

include hi

theorem effect_rdTransmit {ps : List (List Byte)} (h : exec (.rdTransmit ps) s = .next t) : Effect e s t := by
  by_cases hlc : s.radio.lc = .running
  · cases hbad : firstBadPacket 0 ps with
    | some bad =>
      rw [exec_rdTransmit_bad hlc hbad] at h
      cases h
      exact .answer _
    | none =>
      have hps : PacketsFit ps := forall_of_firstBadPacket hbad
      rw [exec_rdTransmit_good hlc hbad] at h
      split at h <;> cases h
      · exact .of_traffic hi (m := .answer (.ok .none)) trivial (.append trivial (fun _ => rfl) fun _ => hps) rfl
      · exact .of_traffic hi (m := .issue (.rdTransmit ps)) trivial
          (.wait trivial fun _ hq => by cases hq; exact hps) rfl
  · rw [exec_rdTransmit_state ps hlc] at h
    cases h
    exact .answer _

theorem effect_rdTransmitStep {ps : List (List Byte)} (hop : s.findOp tk = some (.rdTransmit ps)) :
    Effect e s (rdTransmitStep tk ps s) := by
  rw [rdTransmitStep_eq]
  split_ifs
  · exact .of_traffic hi (m := .finish tk (.rdTransmit ps) (.ok .none)) hop
      (.append trivial (fun _ => rfl) fun hops => hops tk ps (s.findOp_mem tk _ hop)) rfl
  · exact .idle

theorem effect_rdReceive (h : exec .rdReceive s = .next t) : Effect e s t := by
  by_cases hlc : s.radio.lc = .running
  · rw [exec_rdReceive_running hlc] at h
    split at h <;> cases h
    · exact .of_traffic hi (m := .answer (.ok (.list s.radio.rxList))) trivial (.drain trivial fun _ => rfl) rfl
    · exact .of_traffic hi (m := .issue .rdReceive) trivial (.wait trivial (by simp)) rfl
  · rw [exec_rdReceive_state hlc] at h
    cases h
    exact .answer _

theorem effect_rdReceiveStep (hop : s.findOp tk = some .rdReceive) : Effect e s (rdReceiveStep tk s) := by
  rw [rdReceiveStep_eq]
  split_ifs
  · exact .of_traffic hi (m := .finish tk .rdReceive (.ok (.list s.radio.rxList))) hop
      (.drain trivial fun _ => rfl) rfl
  · exact .idle

/-- The edge detector. -/
theorem effect_irqInput (l : Bool) : Effect e s (irqInput l s) :=
  .of_traffic hi (m := .none) (r := s.radio.irqInput l) trivial
    (.of_quiet ⟨rfl, rfl, rfl, rfl, rfl⟩ rfl fun h => h) rfl

end

/-! ### RD_TX -/

/-- What RD_TX writes beside the port: its own registers; the batch stays or is emptied. -/
def Radio.TxMoved (r r' : Radio) : Prop :=
  ∃ i a q b, r' = { r with txIdx := i, sentAny := a, seqRdTx := q, txBatchR := b } ∧ (b = r.txBatchR ∨ b = [])

theorem Radio.TxMoved.refl (r : Radio) : r.TxMoved r := ⟨r.txIdx, r.sentAny, r.seqRdTx, r.txBatchR, rfl, .inl rfl⟩

theorem Radio.TxMoved.trans {r r' r'' : Radio} (h : r.TxMoved r') (h' : r'.TxMoved r'') : r.TxMoved r'' := by
  obtain ⟨i, a, q, b, rfl, hb⟩ := h
  obtain ⟨i', a', q', b', rfl, hb'⟩ := h'
  refine ⟨i', a', q', b', rfl, ?_⟩
  obtain rfl | rfl := hb'
  · exact hb
  · exact .inr rfl

theorem Radio.TxMoved.ported {r r' : Radio} (h : r.TxMoved r') (log : List (List Byte × List Byte)) (res : StepRes) :
    (r.ported log res).TxMoved (r'.ported log res) := by
  obtain ⟨i, a, q, b, rfl, hb⟩ := h
  exact ⟨i, a, q, b, rfl, hb⟩

theorem Radio.TxMoved.seqRdTx (r : Radio) (q : RdTxSeq) : r.TxMoved { r with seqRdTx := q } :=
  ⟨r.txIdx, r.sentAny, q, r.txBatchR, rfl, .inl rfl⟩

theorem Radio.TxMoved.bounded {r r' : Radio} (h : r.TxMoved r') (hr : r.Bounded) : r'.Bounded := by
  obtain ⟨i, a, q, b, rfl, hb⟩ := h
  obtain ⟨htxq, hbatch, hrest⟩ := hr
  refine ⟨htxq, ?_, hrest⟩
  obtain rfl | rfl := hb
  · exact hbatch
  · simp [PacketsFit]

theorem Radio.Bounded.ported {r : Radio} (h : r.Bounded) (log : List (List Byte × List Byte)) (res : StepRes) :
    (r.ported log res).Bounded := by
  obtain ⟨htxq, hbatch, hrx, hdata, hstore, hprops, htl, hrl, -⟩ := h
  exact ⟨htxq, hbatch, hrx, hdata, hstore, hprops, htl, hrl, rfl⟩

section
variable {e : Stimulus} {s t : State} {cmd : List Byte} {k : Nat} {res : StepRes}
  {log : List (List Byte × List Byte)}

/-- The log after a radio step of an agent, which none makes while a construction has the port and IRQ_EN is 0. -/
theorem PortStep.trafficLog (hp : PortStep s.cfg s.radio cmd k res log)
    (hbar : s.radio.lc = .constructing → s.radio.spiOpen = true → s.radio.irqEn = true) :
    log = s.radio.spiLog
    ∨ ((s.radio.lc = .constructing → s.radio.irqEn = true) ∧ s.radio.spiOpen = true ∧ s.radio.spiLock = .free
      ∧ ∃ cmd k reads, PollReads s.cfg k reads ∧ log = s.radio.spiLog ++ stepLog s.cfg cmd reads) := by
  obtain ⟨-, h⟩ | ⟨ho, reads, hreads, h⟩ := hp.log
  · exact .inl h
  · exact .inr ⟨fun hc => hbar hc ho, ho, hp.lock, cmd, k, reads, hreads, h⟩

/-- A row of RD_TX that is one radio step. -/
theorem TrafficRow.rdTx_port {r : Radio} (hp : PortStep s.cfg s.radio cmd k res log)
    (hb : s.radio.txBarred = false) (hr : (s.radio.ported log res).TxMoved r) : TrafficRow s .none r := by
  have hbar (hc : s.radio.lc = .constructing) (ho : s.radio.spiOpen = true) : s.radio.irqEn = true :=
    absurd (s.radio.txBarred_iff.2 ⟨hc, ho⟩) (ne_true_of_eq_false hb)
  have hbound (h : s.radio.Bounded) : r.Bounded := hr.bounded (h.ported log res)
  obtain ⟨i, a, q, b, rfl, -⟩ := hr
  exact { ops := trivial, fits := by simp [OpMove.target], life := ⟨rfl, rfl, rfl, rfl, rfl⟩, log := hp.trafficLog hbar
          bounded := fun _ => hbound }

/-- A row of RD_TX that leaves the port alone. -/
theorem TrafficRow.rdTx {r : Radio} (hr : s.radio.TxMoved r) : TrafficRow s .none r := by
  have hbound (h : s.radio.Bounded) : r.Bounded := hr.bounded h
  obtain ⟨i, a, q, b, rfl, -⟩ := hr
  exact .of_quiet ⟨rfl, rfl, rfl, rfl, rfl⟩ rfl hbound

theorem nextPacket_txMoved (j : Nat) (x : State) : ∃ r, x.nextPacket j = x.setRadio r ∧ x.radio.TxMoved r := by
  unfold State.nextPacket
  split_ifs
  · exact ⟨_, rfl, .seqRdTx _ _⟩
  · exact ⟨_, rfl, .seqRdTx _ _⟩
  · exact ⟨_, rfl, x.radio.txIdx, x.radio.sentAny, _, [], rfl, .inr rfl⟩

variable (hi : e.touches s = none)
include hi

/-- A row of a packet. -/
theorem effect_pktAfter {j : Nat} {ok : State → State} {r₀ : Radio} {tape : List Byte} {limits : List Nat} {d : Nat}
    (hb : s.radio.txBarred = false) (hr₀ : s.radio.TxMoved r₀)
    (hok : ∀ x : State, ∃ r, ok x = x.setRadio r ∧ x.radio.TxMoved r) :
    Effect e s (pktAfter j ok s (radioStep cmd 0 (s.withTape r₀ tape limits d))) := by
  obtain hheld | ⟨res, log, tape', limits', d', hp, hstep⟩ := radioStep_cases cmd 0 (s.withTape r₀ tape limits d)
  · rw [hheld]
    exact .idle
  · have hp' : PortStep s.cfg s.radio cmd 0 res log := by
      obtain ⟨i, a, q, b, rfl, -⟩ := hr₀
      exact ⟨hp.lock, hp.log, hp.result⟩
    have heffect {f : State → State} (hf : ∀ x : State, ∃ r, f x = x.setRadio r ∧ x.radio.TxMoved r) :
        Effect e s (f (s.withTape (r₀.ported log res) tape' limits' d')) := by
      obtain ⟨r, hfx, hr⟩ := hf (s.withTape (r₀.ported log res) tape' limits' d')
      rw [hfx]
      exact .traffic .none r tape' limits' d' hi trivial (.rdTx_port hp' hb ((hr₀.ported log res).trans hr))
    rw [hstep]
    obtain ⟨resp, rfl, -⟩ | rfl | rfl := hp.result
    · exact heffect hok
    · exact heffect (nextPacket_txMoved j)
    · exact heffect (f := fun x => x.setRdTx .stopped) fun x => ⟨_, rfl, .seqRdTx _ _⟩

theorem effect_rearmAfter (hb : s.radio.txBarred = false) : Effect e s (rearmAfter s (radioStep cmd 0 s)) := by
  obtain hheld | ⟨res, log, tape, limits, d, hp, hstep⟩ := radioStep_cases cmd 0 s
  · rw [hheld]
    exact .idle
  · have heffect (q : RdTxSeq) : Effect e s ((s.withTape (s.radio.ported log res) tape limits d).setRadio
        { s.radio.ported log res with txBatchR := [], seqRdTx := q }) :=
      .traffic .none _ tape limits d hi trivial
        (.rdTx_port hp hb ⟨s.radio.txIdx, s.radio.sentAny, q, [], rfl, .inr rfl⟩)
    rw [hstep]
    obtain ⟨resp, rfl, -⟩ | rfl | rfl := hp.result
    · exact heffect .wait
    · exact heffect .wait
    · exact heffect .stopped

theorem effect_rdTxRow (g : Bool) : Effect e s (rdTxRow g s) := by
  have hstop : Effect e s (s.setRadio { s.radio with seqRdTx := .stopped }) :=
    .of_traffic hi (m := .none) trivial (.rdTx (.seqRdTx _ _)) rfl
  by_cases hradio : s.radio.AtRadioRow
  · by_cases hg : g = false ∨ s.radio.shutdown = false
    · by_cases hb : s.radio.txBarred = true
      · rw [rdTxRow_barred hradio hg hb]
        exact .idle
      rw [Bool.not_eq_true] at hb
      obtain ⟨j, st, hq⟩ | hq := hradio
      · obtain ⟨p, d, hp, -⟩ := s.batchPacket_spec j
        cases st with
        | clear =>
          rw [rdTxRow_clear hg hb hq]
          exact effect_pktAfter hi hb ⟨j, _, _, _, rfl, .inl rfl⟩ fun x => ⟨_, rfl, .seqRdTx _ _⟩
        | write =>
          rw [rdTxRow_write hg hb hq hp]
          exact effect_pktAfter hi hb (.refl _) fun x => ⟨_, rfl, .seqRdTx _ _⟩
        | start =>
          rw [rdTxRow_start hg hb hq hp]
          refine effect_pktAfter hi hb (.refl _) fun x => ?_
          obtain ⟨r, hnext, hr⟩ := nextPacket_txMoved j (x.setRadio (x.radio.setSentAny true))
          exact ⟨r, hnext, .trans ⟨_, true, _, _, rfl, .inl rfl⟩ hr⟩
      · rw [rdTxRow_rearm hg hb hq]
        exact effect_rearmAfter hi hb
    · obtain ⟨hg', hs⟩ := not_or.1 hg
      rw [Bool.not_eq_false] at hg' hs
      rw [hg', rdTxRow_giveUp hradio hs]
      exact hstop
  · cases hq : s.radio.seqRdTx with
    | batch j st => exact absurd (.inl ⟨j, st, hq⟩) hradio
    | rearm => exact absurd (.inr hq) hradio
    | stopped =>
      rw [rdTxRow_stopped hq]
      exact .idle
    | wait =>
      by_cases hs : s.radio.shutdown = true
      · rw [rdTxRow_wait_stop hq hs]
        exact hstop
      rw [Bool.not_eq_true] at hs
      by_cases hdrain : s.radio.txq = [] ∨ s.radio.txqLock ≠ .free
      · rw [rdTxRow_wait_idle hq hs hdrain]
        exact .idle
      · obtain ⟨htxq, hl⟩ := not_or.1 hdrain
        rw [rdTxRow_wait_drain hq hs htxq (not_not.1 hl)]
        refine .of_traffic hi (m := .none) trivial ?_ rfl
        exact .of_quiet ⟨rfl, rfl, rfl, rfl, rfl⟩ rfl fun ⟨hq, _, hrest⟩ => ⟨by simp [PacketsFit], hq, hrest⟩

theorem effect_rdTx {g : Bool} (h : exec (.rdTxStep g) s = .next t) : Effect e s t := by
  by_cases hlc : s.radio.lc = .failed
  · rw [exec_rdTxStep_failed hlc] at h
    cases h
    exact .idle
  · rw [exec_rdTxStep hlc] at h
    cases h
    exact effect_rdTxRow hi g

end

/-! ### RD_IRQ -/

section
variable {e : Stimulus} {s t : State} {cmd : List Byte} {k : Nat} {res : StepRes}
  {log : List (List Byte × List Byte)}

/-- A row of RD_IRQ that is one radio step. -/
theorem TrafficRow.rdIrq_port (hp : PortStep s.cfg s.radio cmd k res log) (hb : s.radio.irqBarred = false)
    {q : RdIrqSeq} (hdata : ∀ n, q = .data n → n ≤ 65535)
    (hstore : s.radio.Bounded → ∀ d, q = .store d → d.length ≤ 65535) :
    TrafficRow s .none { s.radio.ported log res with seqRdIrq := q } where
  ops := trivial
  fits := by simp [OpMove.target]
  life := ⟨rfl, rfl, rfl, rfl, rfl⟩
  log := hp.trafficLog fun hc ho => by
    by_contra hirq
    exact absurd (s.radio.irqBarred_iff.2 ⟨hc, ho, Bool.eq_false_iff.2 hirq⟩) (ne_true_of_eq_false hb)
  bounded _ h := by
    have hst := hstore h
    obtain ⟨htxq, hbatch, hrx, -, -, hrest⟩ := h.ported log res
    exact ⟨htxq, hbatch, hrx, hdata, hst, hrest⟩

/-- The length is two bytes, so at most 65535. -/
theorem rxLenValue_le (hi lo : Byte) : rxLenValue hi lo ≤ 65535 := by
  have hhi := byte_toNat_le hi
  have hlo := byte_toNat_le lo
  rw [rxLenValue]
  omega

variable (hi : e.touches s = none)
include hi

theorem effect_lenAfter (h : s.radio.seqRdIrq = .len) (hb : s.radio.irqBarred = false) :
    Effect e s (lenAfter s (radioStep cmd 2 s)) := by
  obtain hheld | ⟨res, log, tape, limits, d, hp, hstep⟩ := radioStep_cases cmd 2 s
  · rw [hheld]
    exact .idle
  · have hidle : Effect e s ((s.withTape (s.radio.ported log res) tape limits d).setRdIrq .idle) :=
      .traffic .none _ tape limits d hi trivial (.rdIrq_port hp hb (by simp) (by simp))
    rw [hstep]
    obtain ⟨resp, rfl, hlen⟩ | rfl | rfl := hp.result
    · obtain ⟨bhi, blo, rfl⟩ := List.length_eq_two.1 hlen
      have hlenAfter : lenAfter s (.ready [bhi, blo], s.withTape (s.radio.ported log (.ready [bhi, blo])) tape limits d)
          = (s.withTape (s.radio.ported log (.ready [bhi, blo])) tape limits d).setRdIrq
            (.data (rxLenValue bhi blo)) := applyRxLen_len bhi blo h
      rw [hlenAfter]
      refine .traffic .none _ tape limits d hi trivial (.rdIrq_port hp hb (fun n hn => ?_) (by simp))
      cases hn
      exact rxLenValue_le bhi blo
    · exact hidle
    · exact hidle

theorem effect_dataAfter {n : Nat} (h : s.radio.seqRdIrq = .data n) (hb : s.radio.irqBarred = false) :
    Effect e s (dataAfter s (radioStep cmd n s)) := by
  obtain hheld | ⟨res, log, tape, limits, d, hp, hstep⟩ := radioStep_cases cmd n s
  · rw [hheld]
    exact .idle
  · have hidle : Effect e s ((s.withTape (s.radio.ported log res) tape limits d).setRdIrq .idle) :=
      .traffic .none _ tape limits d hi trivial (.rdIrq_port hp hb (by simp) (by simp))
    rw [hstep]
    obtain ⟨resp, rfl, hlen⟩ | rfl | rfl := hp.result
    · refine .traffic .none _ tape limits d hi trivial
        (.rdIrq_port (q := .store resp) hp hb (by simp) fun ⟨_, _, _, hdata, _⟩ d' hd => ?_)
      cases hd
      exact hlen ▸ hdata n h
    · exact hidle
    · exact hidle

theorem effect_rdIrqRow : Effect e s (rdIrqRow s) := by
  by_cases hradio : s.radio.AtIrqRow
  · by_cases hb : s.radio.irqBarred = true
    · rw [rdIrqRow_barred hradio hb]
      exact .idle
    rw [Bool.not_eq_true] at hb
    obtain hq | ⟨n, hq⟩ := hradio
    · rw [rdIrqRow_len hq hb]
      exact effect_lenAfter hi hq hb
    · rw [rdIrqRow_data hq hb]
      exact effect_dataAfter hi hq hb
  · cases hq : s.radio.seqRdIrq with
    | len => exact absurd (.inl hq) hradio
    | data n => exact absurd (.inr ⟨n, hq⟩) hradio
    | idle =>
      by_cases hedge : s.radio.irqEn = false ∨ s.radio.irqPend = 0
      · rw [rdIrqRow_idle hq hedge]
        exact .idle
      · obtain ⟨hen, hpend⟩ := not_or.1 hedge
        rw [rdIrqRow_idle_edge hq (Bool.not_eq_false _ ▸ hen) (Nat.pos_of_ne_zero hpend)]
        refine .of_traffic hi (m := .none) trivial ?_ rfl
        exact .of_quiet ⟨rfl, rfl, rfl, rfl, rfl⟩ rfl fun ⟨htxq, hbatch, hrx, _, _, hrest⟩ => ⟨htxq, hbatch, hrx, by simp, by simp, hrest⟩
    | store d =>
      by_cases hl : s.radio.rxlLock = .free
      · rw [rdIrqRow_store hq hl]
        refine .of_traffic hi (m := .none) trivial ?_ rfl
        exact .of_quiet ⟨rfl, rfl, rfl, rfl, rfl⟩ rfl fun ⟨htxq, hbatch, hrx, _, hstore, hrest⟩ => ⟨htxq, hbatch,
          List.forall_mem_append.2 ⟨hrx, List.forall_mem_singleton.2 (hstore d hq)⟩, by simp, by simp, hrest⟩
      · rw [rdIrqRow_store_wait hq hl]
        exact .idle

theorem effect_rdIrq (h : exec .rdIrqStep s = .next t) : Effect e s t := by
  by_cases hlc : s.radio.lc = .failed
  · rw [exec_rdIrqStep_failed hlc] at h
    cases h
    exact .idle
  · rw [exec_rdIrqStep hlc] at h
    cases h
    exact effect_rdIrqRow hi

end

/-! ### Every step -/

/-- The controller that an operation of the host reads and writes as it is issued. -/
def Instr.uartOf : Instr → Option Nat
  | .ufConstruct i _ | .ufReadFrame i _ | .ufShutdown i | .urConstruct i _ _ _ _ | .urWrite i _ | .urRead i
  | .urShutdown i => some i.toNat
  | _ => none

/-- The controller that an operation in progress works on. -/
def HostOp.uartOf : HostOp → Option Nat
  | .send i _ _ | .readFrame i _ | .ufShutdown i _ | .urWrite i _ | .urRead i | .urShutdown i _ => some i
  | .rdConstruct _ _ | .rdTransmit _ | .rdReceive | .rdShutdown _ => none

theorem touches_issue {w : List Byte} {i : Instr} (hw : decodeHost w = .ok i) (s : State) :
    Stimulus.touches s (.issue w) = Instr.uartOf i := by
  rw [Stimulus.touches, hw]
  cases i <;> rfl

theorem touches_resume {s : State} {tk : Nat} {op : HostOp} (hop : s.findOp tk = some op) (b : Bool) :
    Stimulus.touches s (.resume tk b) = op.uartOf := by
  rw [Stimulus.touches, hop]
  cases op <;> rfl

section
variable {s t : State}

/-- A word of the host. -/
theorem effect_issue {w : List Byte} {i : Instr} (hw : decodeHost w = .ok i) (h : exec i s = .next t) :
    Effect (.issue w) s t := by
  obtain ⟨⟨-, hhost⟩, -⟩ := (decodePrefix_codec s.cfg).sound w i [] (decodeHost_ok_iff.1 hw)
  have htouches := touches_issue hw s
  cases i with
  | crcInit => cases h; exact .crc w _ _ rfl (.inl hw)
  | crcUpdate b => cases h; exact .crc w _ _ rfl (.inr ⟨b, hw⟩)
  | crcRead => cases h; exact .answer _
  | crcSum bs => rw [exec_crcSum] at h; cases h; exact .answer _
  | frmBuild p =>
    by_cases hp : p.length ≤ 255
    · rw [exec_frmBuild_ok hp] at h; cases h; exact .answer _
    · rw [exec_frmBuild_size (by omega)] at h; cases h; exact .answer _
  | frmParse bs => rw [exec_frmParse] at h; cases h; exact .answer _
  | ufConstruct inst baud => exact effect_ufConstruct htouches h
  | ufSend inst p => exact effect_ufSend h
  | ufReadFrame inst timeout => exact effect_ufReadFrame htouches h
  | ufShutdown inst => exact effect_ufShutdown htouches h
  | urConstruct inst baud d st p => exact effect_urConstruct htouches h
  | urWrite inst d => exact effect_urWrite htouches h
  | urRead inst => exact effect_urRead htouches h
  | urShutdown inst => exact effect_urShutdown htouches h
  | rdConstruct ch props => exact effect_rdConstruct htouches h
  | rdTransmit ps => exact effect_rdTransmit htouches h
  | rdReceive => exact effect_rdReceive htouches h
  | rdShutdown => exact effect_rdShutdown htouches h
  | ufRxStep _ | urTxStep _ | urRxStep _ | rdTxStep _ | rdIrqStep | rcPowerUp | rcReadStatus _ | rcGpioCfg
  | rcSetProperty _ | rcClearTxFifo | rcWriteTxFifo _ | rcStartTx _ _ | rcStartRx _ | rcRxLen | rcReadRxFifo _
  | frame _ _ _ _ | rxlen _ _ => contradiction

/-- A row of an operation on a controller that does not exist changes nothing. -/
theorem onInstance_next {i : Nat} {k : Uart → Out} (h : onInstance i s k = .next t) :
    t = s ∨ ∃ u, s.uarts[i]? = some u ∧ k u = .next t := by
  unfold onInstance at h
  split at h
  · next u hu => exact .inr ⟨u, hu, h⟩
  · cases h
    exact .inl rfl

/-- The next row of an operation in progress. -/
theorem effect_resume {tk : Nat} {b : Bool} (h : resume tk b s = .next t) : Effect (.resume tk b) s t := by
  cases hop : s.findOp tk with
  | none =>
    rw [resume_none tk b s hop] at h
    cases h
    exact .idle
  | some op =>
    have htouches := touches_resume hop b
    cases op with
    | rdConstruct ch ps =>
      rw [resume_rdConstruct b hop] at h
      cases h
      exact effect_consStep rfl htouches hop
    | rdTransmit ps =>
      rw [resume_rdTransmit b hop] at h
      cases h
      exact effect_rdTransmitStep htouches hop
    | rdReceive =>
      rw [resume_rdReceive b hop] at h
      cases h
      exact effect_rdReceiveStep htouches hop
    | rdShutdown st =>
      rw [resume_rdShutdown b hop] at h
      cases h
      exact effect_rdShutdownStep htouches hop
    | send i f q =>
      simp only [resume, hop] at h
      obtain rfl | ⟨u, hu, h⟩ := onInstance_next h
      · exact .idle
      · cases h
        exact effect_sendStep htouches hu hop
    | readFrame i bounded =>
      simp only [resume, hop] at h
      obtain rfl | ⟨u, hu, h⟩ := onInstance_next h
      · exact .idle
      · cases h
        exact effect_readFrameStep htouches hu hop
    | ufShutdown i st =>
      simp only [resume, hop] at h
      obtain rfl | ⟨u, hu, h⟩ := onInstance_next h
      · exact .idle
      · cases h
        exact effect_ufShutdownStep htouches hu hop
    | urWrite i d =>
      simp only [resume, hop] at h
      obtain rfl | ⟨u, hu, h⟩ := onInstance_next h
      · exact .idle
      · cases h
        exact effect_urWriteStep htouches hu hop
    | urRead i =>
      simp only [resume, hop] at h
      obtain rfl | ⟨u, hu, h⟩ := onInstance_next h
      · exact .idle
      · cases h
        exact effect_urReadStep htouches hu hop
    | urShutdown i st =>
      simp only [resume, hop] at h
      obtain rfl | ⟨u, hu, h⟩ := onInstance_next h
      · exact .idle
      · exact effect_urShutdownStep htouches hu hop h

/-- Everything a stimulus can do. -/
theorem perform_effect {e : Stimulus} (h : perform e s = .next t) : Effect e s t := by
  cases e with
  | issue w =>
    cases hw : decodeHost w with
    | ok i => exact effect_issue hw (perform_issue hw s ▸ h)
    | error err =>
      rw [perform_issue_error hw] at h
      cases h
      exact .answer _
  | resume tk b => exact effect_resume h
  | agent a =>
    cases a with
    | ufRx inst => exact effect_ufRx rfl h
    | urTx inst => exact effect_urTx rfl h
    | urRx inst => exact effect_urRx rfl h
    | rdTx g => exact effect_rdTx rfl h
    | rdIrq => exact effect_rdIrq rfl h
  | line inst bs =>
    rw [perform_line] at h
    cases h
    exact effect_lineBytes rfl bs
  | lineError inst =>
    cases h
    exact effect_lineError rfl
  | irq l =>
    cases h
    exact effect_irqInput rfl l
  | hardReset =>
    cases h
    exact .hardReset rfl

/-- Everything a step can do. -/
theorem step_effect (h : step s = .next t) :
    (s.script = [] ∧ t = s) ∨ ∃ e rest, s.script = e :: rest ∧ Effect e { s with script := rest } t := by
  cases hs : s.script with
  | nil =>
    rw [step_nil hs] at h
    cases h
    exact .inl ⟨rfl, rfl⟩
  | cons e rest =>
    rw [step_cons hs] at h
    exact .inr ⟨e, rest, rfl, perform_effect h⟩

end

end Sys2Proof.Machine
end

section
/-! PROOFS. What every step leaves alone: the CRC register and the parameters, the other controllers, the log of the radio's port (10_state.md R30, R31; 45_radio_txrx.md R292). -/

namespace Sys2Proof.Machine

section
variable {e : Stimulus} {s t : State}

/-! ### The CRC register and the parameters -/

theorem Effect.cfg_eq (h : Effect e s t) : t.cfg = s.cfg := by
  cases h with
  | uart | life | traffic => rw [OpMove.apply_cfg]; rfl
  | idle | answer | send | crc | hardReset => rfl

/-- Only the two operations and a hardware reset write CRC. -/
theorem Effect.crc_eq (h : Effect e s t) : t.crc = s.crc
    ∨ (∃ w, e = .issue w ∧ (decodeHost w = .ok .crcInit ∨ ∃ b, decodeHost w = .ok (.crcUpdate b)))
    ∨ e = .hardReset := by
  cases h with
  | uart | life | traffic => rw [OpMove.apply_crc]; exact .inl rfl
  | idle | answer | send => exact .inl rfl
  | crc w c r he hw => exact .inr (.inl ⟨w, he, hw⟩)
  | hardReset he => exact .inr (.inr he)

/-! ### The controllers -/

/-- A step but a hardware reset leaves a controller as it is, unless it is a row of that controller. -/
theorem Effect.uart_eq_or_row (h : Effect e s t) (he : e ≠ .hardReset) (i : Nat) :
    t.uarts[i]? = s.uarts[i]?
    ∨ (e.touches s = some i ∧ ∃ u v m, s.uarts[i]? = some u ∧ t.uarts[i]? = some v ∧ UartRow s i u m v) := by
  cases h with
  | idle | answer | send | crc => exact .inl rfl
  | life | traffic => rw [OpMove.apply_uarts]; exact .inl rfl
  | hardReset h => exact absurd h he
  | uart j u v m hj hu hv hrow =>
    rw [OpMove.apply_uarts]
    by_cases hij : i = j
    · subst hij
      exact .inr ⟨hj, u, v, m, hu, s.setUart_get i u v hu, hrow⟩
    · exact .inl (List.getElem?_set_ne (Ne.symm hij))

theorem Effect.length_uarts (h : Effect e s t) : t.uarts.length = s.uarts.length := by
  cases h with
  | idle | answer | send | crc => rfl
  | uart i u v m => rw [OpMove.apply_uarts]; exact List.length_set
  | life | traffic => rw [OpMove.apply_uarts]; rfl
  | hardReset => exact List.length_map _

/-- A controller after a step: as it was, or after one of its rows. -/
theorem Effect.row_of_get (h : Effect e s t) (he : e ≠ .hardReset) {i : Nat} {v : Uart} (hv : t.uarts[i]? = some v) :
    s.uarts[i]? = some v ∨ ∃ u m, s.uarts[i]? = some u ∧ UartRow s i u m v := by
  obtain heq | ⟨-, u, v', m, hu, hv', hrow⟩ := h.uart_eq_or_row he i
  · exact .inl (heq ▸ hv)
  · rw [hv] at hv'
    cases hv'
    exact .inr ⟨u, m, hu, hrow⟩

/-- A step of a controller leaves the radio and the CRC unit. -/
theorem Effect.other_units_eq (h : Effect e s t) {i : Nat} (hi : e.touches s = some i) :
    t.radio = s.radio ∧ t.crc = s.crc ∧ t.fbCrc = s.fbCrc := by
  have hne {x : Option Nat} (hx : x = none) (hx' : x = some i) : False := by
    rw [hx] at hx'
    contradiction
  cases h with
  | idle | answer | send => exact ⟨rfl, rfl, rfl⟩
  | uart => exact ⟨OpMove.apply_radio _ _, OpMove.apply_crc _ _, OpMove.apply_fbCrc _ _⟩
  | life m r tape limits d hnone => exact (hne hnone hi).elim
  | traffic m r tape limits d hnone => exact (hne hnone hi).elim
  | crc w c r hw hdec =>
    subst hw
    have hnone : Stimulus.touches s (.issue w) = none := by
      obtain hdec | ⟨b, hdec⟩ := hdec <;> exact touches_issue hdec s
    exact (hne hnone hi).elim
  | hardReset hr =>
    subst hr
    contradiction

/-! ### The log of the radio's port -/

/-- SPI_LOG grows by one whole block, with the port open and SPILOCK free, or not at all. -/
theorem Effect.spiLog_eq_or_block (h : Effect e s t) : t.radio.spiLog = s.radio.spiLog
    ∨ (s.radio.spiOpen = true ∧ s.radio.spiLock = .free
      ∧ ∃ cmd k reads, PollReads s.cfg k reads ∧ t.radio.spiLog = s.radio.spiLog ++ stepLog s.cfg cmd reads) := by
  cases h with
  | idle | answer | send | crc | hardReset => exact .inl rfl
  | uart => rw [OpMove.apply_radio]; exact .inl rfl
  | traffic m r tape limits d hi hv hrow =>
    rw [OpMove.apply_radio]
    exact hrow.log.imp_right fun ⟨_, hblock⟩ => hblock
  | life m r tape limits d hi hv hrow =>
    rw [OpMove.apply_radio]
    cases hrow with
    | command tk b ch ps cmd st q res log he hop hrow hp =>
      obtain ⟨-, hlog⟩ | ⟨ho, reads, hreads, hlog⟩ := hp.log
      · exact .inl hlog
      · exact .inr ⟨ho, hp.lock, cmd, 0, reads, hreads, hlog⟩
    | fail tk b ch ps cmd st q res log rst spiOpen r he hop hrow hp =>
      obtain ⟨-, hlog⟩ | ⟨ho, reads, hreads, hlog⟩ := hp.log
      · exact .inl hlog
      · exact .inr ⟨ho, hp.lock, cmd, 0, reads, hreads, hlog⟩
    | guard | badConfig | configure | pulse | irqOn | start | shutdown | drain | flag | lock | close | finish =>
      exact .inl rfl

theorem Handshaken.append_block {c : Config} {log : List (List Byte × List Byte)} {cmd : List Byte} {k : Nat}
    {reads : List (List Byte)} (h : Handshaken c log) (hreads : PollReads c k reads) :
    Handshaken c (log ++ stepLog c cmd reads) := by
  obtain ⟨blocks, rfl, hblocks⟩ := h
  refine ⟨blocks ++ [(cmd, k, reads)], by simp, ?_⟩
  exact List.forall_mem_append.2 ⟨hblocks, List.forall_mem_singleton.2 hreads⟩

end

/-- The touched controller does not depend on the script. -/
theorem touches_script (e : Stimulus) (s : State) (rest : List Stimulus) :
    e.touches { s with script := rest } = e.touches s := rfl

/-- Settles O5. -/
theorem crcRegisterOwnership : Obligations.CrcRegisterOwnership := by
  unfold Obligations.CrcRegisterOwnership
  intro s t h
  obtain ⟨-, rfl⟩ | ⟨e, rest, hs, heff⟩ := step_effect h
  · exact ⟨rfl, .inl rfl⟩
  refine ⟨heff.cfg_eq, ?_⟩
  obtain hcrc | ⟨w, rfl, hw⟩ | rfl := heff.crc_eq
  · exact .inl hcrc
  · exact .inr (.inl ⟨w, rest, hs, hw⟩)
  · exact .inr (.inr ⟨rest, hs⟩)

/-- Settles O56. -/
theorem instancesIsolated : Obligations.InstancesIsolated := by
  unfold Obligations.InstancesIsolated
  intro s t e rest hs he h
  rw [step_cons hs] at h
  have heff := perform_effect h
  refine ⟨fun i hi => ?_, heff.length_uarts, fun i hi => heff.other_units_eq (touches_script e s rest ▸ hi)⟩
  obtain heq | ⟨htouch, -⟩ := heff.uart_eq_or_row he i
  · exact heq
  · exact absurd (touches_script e s rest ▸ htouch) hi

/-- Settles O53. -/
theorem spiDiscipline : Obligations.SpiDiscipline := by
  unfold Obligations.SpiDiscipline
  intro s t h
  obtain ⟨-, rfl⟩ | ⟨e, rest, hs, heff⟩ := step_effect h
  · exact ⟨⟨[], by simp, by simp⟩, id⟩
  have hcfg : t.cfg = s.cfg := heff.cfg_eq
  unfold HandshakeInv
  rw [hcfg]
  obtain hlog | ⟨ho, hl, cmd, k, reads, hreads, hlog⟩ := heff.spiLog_eq_or_block
  · exact ⟨⟨[], by rw [hlog, List.append_nil], by simp⟩, fun hinv => hlog ▸ hinv⟩
  · refine ⟨⟨_, hlog, fun _ => ⟨ho, hl, cmd, k, reads, hreads, rfl⟩⟩, fun hinv => ?_⟩
    rw [hlog]
    exact hinv.append_block hreads

end Sys2Proof.Machine
end

section
/-! PROOFS. The radio's lifecycle: a failed radio, and the rows of a construction (44_radio_handshake.md R250, R260 to R270). -/

namespace Sys2Proof.Machine

/-! ### A failed radio (R270) -/

theorem consRow_failed {s : State} (h : s.radio.seqCons = .failed) : consRow s = none := by
  simp only [consRow, h]

/-- A row of the lifecycle that moves an operation needs it in progress. -/
theorem OpMove.move_mem {s : State} {t : Nat} {op op' : HostOp} (hv : (OpMove.move t op op').Valid s) :
    (t, op) ∈ s.ops := s.findOp_mem t op hv

theorem OpMove.finish_mem {s : State} {t : Nat} {op : HostOp} {r : Response} (hv : (OpMove.finish t op r).Valid s) :
    (t, op) ∈ s.ops := s.findOp_mem t op hv

/-- No row of the lifecycle is enabled on a failed radio. -/
theorem FailedInv.no_lifeRow {e : Stimulus} {s : State} {m : OpMove} {r : Radio} (h : FailedInv s)
    (hv : m.Valid s) : ¬ LifeRow e s m r := by
  obtain ⟨hlc, halloc, hq, hops⟩ := h
  intro hrow
  have hcons {q : ConsSeq} (hq' : s.radio.seqCons = q) : q = .failed := hq'.symm.trans hq
  cases hrow with
  | guard ch ps hfree => rw [halloc] at hfree; contradiction
  | badConfig t ch ps r hq' => cases hcons hq'
  | configure t ch ps c hop hq' => cases hcons hq'
  | pulse t ch ps spiOpen rst q hop hq' => rw [hq] at hq'; contradiction
  | command t b ch ps cmd st q res log he hop hrow => rw [consRow_failed hq] at hrow; contradiction
  | fail t b ch ps cmd st q res log rst spiOpen r he hop hrow => rw [consRow_failed hq] at hrow; contradiction
  | irqOn t ch ps hop hq' => cases hcons hq'
  | start t ch ps r hq' => cases hcons hq'
  | shutdown hrun => rw [hlc] at hrun; contradiction
  | drain t => exact hops _ _ (OpMove.move_mem hv)
  | flag t => exact hops _ _ (OpMove.move_mem hv)
  | lock t => exact hops _ _ (OpMove.move_mem hv)
  | close t => exact hops _ _ (OpMove.move_mem hv)
  | finish t r => exact hops _ _ (OpMove.finish_mem hv)

/-- An operation of a UART controller is none of the radio's lifecycle. -/
theorem UartRow.not_radioLife {s : State} {i : Nat} {u v : Uart} {m : OpMove} (h : UartRow s i u m v) :
    m.Of (fun op => op.isRadioLife = false) := by
  cases h with
  | queues m rxq txPend rxAcc hm =>
    refine hm.imp fun op hop => ?_
    cases op with
    | rdConstruct | rdShutdown => exact hop.elim
    | send | readFrame | ufShutdown | urWrite | urRead | urShutdown | rdTransmit | rdReceive => rfl
  | constructFramed | constructRaw | ufRx | urTx | urRx | deliver | readError => trivial
  | ufShutdown | urShutdown | ufRelease | urClose | sendDone => rfl
  | ufJoin | ufClose | urDrain | urFlag | urJoin | sendLock | sendToTx | sendByte | sendQuiet | sendToRx =>
    exact ⟨rfl, rfl⟩

theorem HostOp.IsTraffic.not_radioLife {op : HostOp} (h : op.IsTraffic) : op.isRadioLife = false := by
  cases op with
  | rdTransmit | rdReceive => rfl
  | send | readFrame | ufShutdown | urWrite | urRead | urShutdown | rdConstruct | rdShutdown => exact h.elim

/-- A step that is no hardware reset leaves a failed radio failed. -/
theorem FailedInv.step {e : Stimulus} {s t : State} (h : FailedInv s) (heff : Effect e s t) (he : e ≠ .hardReset) :
    FailedInv t := by
  have hkeep {m : OpMove} {x : State} (hx : x.ops = s.ops) (hm : m.Of (fun op => op.isRadioLife = false)) (tk : Nat)
      (st : RdShut) : (tk, HostOp.rdShutdown st) ∉ (m.apply x).ops :=
    OpMove.not_mem_apply_ops hm (by simp [HostOp.isRadioLife]) (hx ▸ h.2.2.2 tk st)
  have hanswer := h
  obtain ⟨hlc, halloc, hq, hops⟩ := h
  cases heff with
  | idle => exact hanswer
  | answer r => exact hanswer
  | crc => exact hanswer
  | send i f u => exact ⟨hlc, halloc, hq, hkeep (m := .issue (.send i f .waitLock)) rfl rfl⟩
  | uart i u v m hi hu hv hrow =>
    refine ⟨?_, ?_, ?_, hkeep rfl hrow.not_radioLife⟩
    all_goals rw [OpMove.apply_radio]; assumption
  | life m r tape limits d hi hv hrow => exact absurd hrow (FailedInv.no_lifeRow hanswer hv)
  | traffic m r tape limits d hi hv hrow =>
    obtain ⟨hlc', halloc', -, -, hq'⟩ := hrow.life
    refine ⟨?_, ?_, ?_, hkeep rfl (hrow.ops.imp fun _ => HostOp.IsTraffic.not_radioLife)⟩ <;> rw [OpMove.apply_radio]
    · exact hlc'.trans hlc
    · exact halloc'.trans halloc
    · exact hq'.trans hq
  | hardReset h => exact absurd h he

/-- Settles O43. -/
theorem failedIsTerminal : Obligations.FailedIsTerminal := by
  unfold Obligations.FailedIsTerminal
  constructor
  · intro s t hinv h
    obtain ⟨-, rfl⟩ | ⟨e, rest, hs, heff⟩ := step_effect h
    · exact .inl hinv
    · by_cases he : e = .hardReset
      · exact .inr ⟨rest, he ▸ hs⟩
      · exact .inl (FailedInv.step (s := { s with script := rest }) hinv heff he)
  · rintro s ⟨hlc, halloc, -, -⟩
    have hrun : s.radio.lc ≠ .running := by rw [hlc]; decide
    have hstate : RadioLc.failed = s.radio.lc := hlc.symm
    rw [hstate]
    exact ⟨fun ch props => exec_rdConstruct_taken ch props halloc, fun ps => exec_rdTransmit_state ps hrun,
      exec_rdReceive_state hrun, exec_rdShutdown_state hrun, fun g => exec_rdTxStep_failed hlc,
      exec_rdIrqStep_failed hlc⟩

/-! ### The rows of a construction (R260, R263, R267, R269, R270) -/

/-- A row with the port open is one radio step: READY goes on, TIMEOUT is fatal. -/
theorem consStep_command_open {s : State} {t : Nat} {ch : Word16} {props : List PropRecord} {cmd : List Byte}
    {st : HandshakeStep} {next : ConsSeq} (hrow : consRow s = some (cmd, st, next)) (hl : s.radio.spiLock = .free)
    (ho : s.radio.spiOpen = true) :
    ∃ s1, RadioStepDone cmd 0 s s1
      ∧ (∀ resp, s1.radio.res = .ready resp →
          consStep t ch props s = s1.setRadio { s1.radio with seqCons := next })
      ∧ (s1.radio.res = .timeout → ∃ rst spiOpen, consStep t ch props s = { s1 with
            radio := { s1.radio with irqEn := false, lc := .failed, seqCons := .failed, rst := rst, spiOpen := spiOpen }
            ops := s.ops.filter (fun e => e.1 != t)
            responses := s.responses ++ [(t, .error (.handshake st))]
            draws := (consStep t ch props s).draws })
      ∧ ((∃ resp, s1.radio.res = .ready resp) ∨ s1.radio.res = .timeout) := by
  obtain ⟨res, s1, hstep, hdone, hres, hcases⟩ := radioStep_open cmd 0 hl ho
  rw [consStep_command hrow, hstep]
  refine ⟨s1, hdone, fun resp h => ?_, fun h => ?_, ?_⟩
  · rw [← hres, h, consAfter_ready]
  · obtain ⟨rst, spiOpen, hend⟩ := consAfter_fail (t := t) (s := s) (st := st) (next := next) (s1 := s1)
      (res := res) (.inl (hres ▸ h))
    obtain ⟨reads, -, hs1⟩ := hdone
    have hops : s1.ops = s.ops := by rw [hs1]
    have hresponses : s1.responses = s.responses := by rw [hs1]
    exact ⟨rst, spiOpen, by rw [hend, hops, hresponses]⟩
  · rw [hres]
    exact hcases.imp_left fun ⟨r, hr, _⟩ => ⟨r, hr⟩

/-- In a construction with IRQ_EN = 0 the only step that makes a transaction is the construction's own row. -/
theorem Effect.spiLog_constructing {e : Stimulus} {s t : State} (h : Effect e s t)
    (hlc : s.radio.lc = .constructing) (hirq : s.radio.irqEn = false) :
    t.radio.spiLog = s.radio.spiLog
    ∨ ∃ tk b ch props cmd st next reads, e = .resume tk b ∧ s.findOp tk = some (.rdConstruct ch props)
      ∧ consRow s = some (cmd, st, next) ∧ t.radio.spiLog = s.radio.spiLog ++ stepLog s.cfg cmd reads := by
  cases h with
  | idle | answer | send | crc | hardReset => exact .inl rfl
  | uart => rw [OpMove.apply_radio]; exact .inl rfl
  | traffic m r tape limits d hi hv hrow =>
    rw [OpMove.apply_radio]
    obtain hlog | ⟨hbar, -⟩ := hrow.log
    · exact .inl hlog
    · exact absurd (hbar hlc) (ne_true_of_eq_false hirq)
  | life m r tape limits d hi hv hrow =>
    rw [OpMove.apply_radio]
    cases hrow with
    | command tk b ch ps cmd st q res log he hop hrow hp =>
      obtain ⟨-, hlog⟩ | ⟨-, reads, -, hlog⟩ := hp.log
      · exact .inl hlog
      · exact .inr ⟨tk, b, ch, ps, cmd, st, q, reads, he, hop, hrow, hlog⟩
    | fail tk b ch ps cmd st q res log rst spiOpen r he hop hrow hp =>
      obtain ⟨-, hlog⟩ | ⟨-, reads, -, hlog⟩ := hp.log
      · exact .inl hlog
      · exact .inr ⟨tk, b, ch, ps, cmd, st, q, reads, he, hop, hrow, hlog⟩
    | guard | badConfig | configure | pulse | irqOn | start | shutdown | drain | flag | lock | close | finish =>
      exact .inl rfl

/-- Settles O42. -/
theorem constructionHandshake : Obligations.ConstructionHandshake := by
  unfold Obligations.ConstructionHandshake
  refine ⟨fun s t b ch props cmd st next hop hrow hl ho => ?_, fun s t b ch props hop => ?_, fun s s' h hlc hirq => ?_⟩
  · rw [resume_rdConstruct b hop]
    obtain ⟨s1, hdone, hready, htimeout, hcases⟩ :=
      consStep_command_open (t := t) (ch := ch) (props := props) hrow hl ho
    exact ⟨_, s1, rfl, hdone, hready, htimeout, hcases⟩
  · rw [resume_rdConstruct b hop]
    simp only [Host.Outcome.next.injEq]
    refine ⟨fun cmd st next hrow hl => ?_, consStep_assert, consStep_hold, consStep_release, consStep_settle,
      consStep_irq, consStep_start⟩
    rw [consStep_command hrow, radioStep_held cmd 0 hl]
    rfl
  · obtain ⟨-, rfl⟩ | ⟨e, rest, hs, heff⟩ := step_effect h
    · exact .inl rfl
    obtain hlog | ⟨tk, b, ch, props, cmd, st, next, reads, rfl, hop, hrow, hlog⟩ := heff.spiLog_constructing hlc hirq
    · exact .inl hlog
    · exact .inr ⟨tk, b, rest, ch, props, cmd, st, next, reads, hs, hop, hrow, hlog⟩

end Sys2Proof.Machine
end

section
/-! PROOFS. The invariants of the radio: the singleton guard and the bounds on its data (44_radio_handshake.md R261, R267; 45_radio_txrx.md R291; 10_state.md R62 to R64). -/

namespace Sys2Proof.Machine

/-! ### At most one construction or shutdown -/

/-- At most one entry of a list without repetitions passes the test when any two that pass are equal. -/
theorem length_filter_le_one_iff {α : Type} {l : List α} (hl : l.Nodup) (p : α → Bool) :
    (l.filter p).length ≤ 1 ↔ ∀ a ∈ l, ∀ b ∈ l, p a = true → p b = true → a = b := by
  constructor
  · intro h a ha b hb hpa hpb
    have ha' : a ∈ l.filter p := List.mem_filter.2 ⟨ha, hpa⟩
    have hb' : b ∈ l.filter p := List.mem_filter.2 ⟨hb, hpb⟩
    obtain ⟨x, hx⟩ := List.length_eq_one_iff.1 (Nat.le_antisymm h (List.length_pos_of_mem ha'))
    rw [hx, List.mem_singleton] at ha' hb'
    rw [ha', hb']
  · intro h
    match hf : l.filter p with
    | [] => simp
    | [x] => simp
    | x :: y :: rest =>
      have hmem (z : α) (hz : z ∈ l.filter p) : z ∈ l ∧ p z = true := List.mem_filter.1 hz
      obtain ⟨hx, hpx⟩ := hmem x (by simp [hf])
      obtain ⟨hy, hpy⟩ := hmem y (by simp [hf])
      have hnodup : (x :: y :: rest).Nodup := hf ▸ hl.filter p
      simp [h x hx y hy hpx hpy] at hnodup

theorem TicketInv.nodup {s : State} (h : TicketInv s) : s.ops.Nodup := List.Nodup.of_map _ h.1

/-- The guard of the radio `r` with the operations `ops` in progress. -/
structure GuardAt (r : Radio) (ops : List (Nat × HostOp)) : Prop where
  unique : ∀ a ∈ ops, ∀ b ∈ ops, a.2.isRadioLife = true → b.2.isRadioLife = true → a = b
  construct : ∀ t ch ps, (t, HostOp.rdConstruct ch ps) ∈ ops → r.lc = .constructing
  shutdown : ∀ t st, (t, HostOp.rdShutdown st) ∈ ops → r.lc = .shut ∧ r.alloc = true
  alloc : r.lc = .constructing ∨ r.lc = .running ∨ r.lc = .failed → r.alloc = true
  lock : r.spiLock = .free ∨ ∃ t, r.spiLock = .held (.host t) ∧ (t, HostOp.rdShutdown .close) ∈ ops
  irq : r.alloc = false ∨ r.seqCons.beforeIrq = true ∨ (∃ t, (t, HostOp.rdShutdown .finish) ∈ ops) → r.irqEn = false

theorem guardInv_iff (s : State) : GuardInv s ↔ TicketInv s ∧ GuardAt s.radio s.ops := by
  refine and_congr_right fun hT => ⟨fun ⟨hlen, hc, hs, ha, hl, hi⟩ => ?_, fun h => ?_⟩
  · exact ⟨(length_filter_le_one_iff hT.nodup _).1 hlen, hc, hs, ha, hl, hi⟩
  · exact ⟨(length_filter_le_one_iff hT.nodup _).2 h.unique, h.construct, h.shutdown, h.alloc, h.lock, h.irq⟩

/-! ### What the guard says in each phase -/

section
variable {r r' : Radio} {ops ops' : List (Nat × HostOp)} {t : Nat} {ch : Word16} {ps : List PropRecord} {st : RdShut}

/-- An operation of the lifecycle in progress is the only one. -/
theorem GuardAt.sole (h : GuardAt r ops) {a : Nat × HostOp} (ha : a ∈ ops) (hlife : a.2.isRadioLife = true) :
    ∀ b ∈ ops, b.2.isRadioLife = true → a = b :=
  fun b hb hlife' => h.unique a ha b hb hlife hlife'

/-- During a construction. -/
theorem GuardAt.constructing (h : GuardAt r ops) (hop : (t, .rdConstruct ch ps) ∈ ops) :
    r.lc = .constructing ∧ r.alloc = true ∧ r.spiLock = .free := by
  have hlc := h.construct t ch ps hop
  refine ⟨hlc, h.alloc (.inl hlc), ?_⟩
  obtain hfree | ⟨t', -, hop'⟩ := h.lock
  · exact hfree
  · exact absurd (hlc.symm.trans (h.shutdown t' _ hop').1) (by decide)

/-- During a shutdown SPILOCK is free, or held by it. -/
theorem GuardAt.shutdownLock (h : GuardAt r ops) (hop : (t, .rdShutdown st) ∈ ops) :
    r.spiLock = .free ∨ (r.spiLock = .held (.host t) ∧ st = .close) := by
  refine h.lock.imp_right fun ⟨t', hl, hop'⟩ => ?_
  cases h.unique _ hop _ hop' rfl rfl
  exact ⟨hl, rfl⟩

/-- With no construction or shutdown in progress. -/
theorem GuardAt.idleLock (h : GuardAt r ops) (hnone : ∀ b ∈ ops, b.2.isRadioLife = true → False) :
    r.spiLock = .free := by
  obtain hfree | ⟨t', -, hop'⟩ := h.lock
  · exact hfree
  · exact (hnone _ hop' rfl).elim

/-- A radio that runs, and one whose guard is free, is not being constructed or shut down. -/
theorem GuardAt.idle (h : GuardAt r ops) (hr : r.alloc = false ∨ r.lc = .running) :
    ∀ b ∈ ops, b.2.isRadioLife = true → False := by
  rintro ⟨t, op⟩ hb hlife
  cases op with
  | rdConstruct ch ps =>
    obtain ⟨hlc, ha, -⟩ := h.constructing hb
    obtain hr | hr := hr
    · exact absurd (ha.symm.trans hr) (by decide)
    · exact absurd (hlc.symm.trans hr) (by decide)
  | rdShutdown st =>
    obtain ⟨hlc, ha⟩ := h.shutdown t st hb
    obtain hr | hr := hr
    · exact absurd (ha.symm.trans hr) (by decide)
    · exact absurd (hlc.symm.trans hr) (by decide)
  | send | readFrame | ufShutdown | urWrite | urRead | urShutdown | rdTransmit | rdReceive => contradiction

/-! ### How the guard is met -/

/-- By a radio that is being constructed. -/
theorem GuardAt.of_construct (hsole : ∀ b ∈ ops, b.2.isRadioLife = true → (t, .rdConstruct ch ps) = b)
    (hlc : r.lc = .constructing) (ha : r.alloc = true) (hl : r.spiLock = .free)
    (hirq : r.seqCons.beforeIrq = true → r.irqEn = false) : GuardAt r ops where
  unique a ha b hb hla hlb := (hsole a ha hla).symm.trans (hsole b hb hlb)
  construct _ _ _ _ := hlc
  shutdown t st hop := by cases hsole _ hop rfl
  alloc _ := ha
  lock := .inl hl
  irq h := by
    obtain h | h | ⟨t', hop⟩ := h
    · exact absurd (ha.symm.trans h) (by decide)
    · exact hirq h
    · cases hsole _ hop rfl

/-- By a radio that is being shut down. -/
theorem GuardAt.of_shutdown (hop : (t, .rdShutdown st) ∈ ops)
    (hsole : ∀ b ∈ ops, b.2.isRadioLife = true → (t, .rdShutdown st) = b)
    (hlc : r.lc = .shut) (ha : r.alloc = true) (hl : r.spiLock = .free ∨ (r.spiLock = .held (.host t) ∧ st = .close))
    (hirq : r.seqCons.beforeIrq = true ∨ st = .finish → r.irqEn = false) : GuardAt r ops where
  unique a ha b hb hla hlb := (hsole a ha hla).symm.trans (hsole b hb hlb)
  construct t ch ps hop := by cases hsole _ hop rfl
  shutdown _ _ _ := ⟨hlc, ha⟩
  alloc _ := ha
  lock := hl.imp_right fun ⟨hl, hst⟩ => ⟨t, hl, hst ▸ hop⟩
  irq h := by
    obtain h | h | ⟨t', hop'⟩ := h
    · exact absurd (ha.symm.trans h) (by decide)
    · exact hirq (.inl h)
    · cases hsole _ hop' rfl
      exact hirq (.inr rfl)

/-- By a radio that is neither. -/
theorem GuardAt.of_idle (hnone : ∀ b ∈ ops, b.2.isRadioLife = true → False)
    (ha : r.lc = .constructing ∨ r.lc = .running ∨ r.lc = .failed → r.alloc = true) (hl : r.spiLock = .free)
    (hirq : r.alloc = false ∨ r.seqCons.beforeIrq = true → r.irqEn = false) : GuardAt r ops where
  unique a ha _ _ hla _ := (hnone a ha hla).elim
  construct t ch ps hop := (hnone _ hop rfl).elim
  shutdown t st hop := (hnone _ hop rfl).elim
  alloc := ha
  lock := .inl hl
  irq h := by
    obtain h | h | ⟨t', hop⟩ := h
    · exact hirq (.inl h)
    · exact hirq (.inr h)
    · exact (hnone _ hop rfl).elim

/-- Steps that touch neither the lifecycle nor its operations keep the guard. -/
theorem GuardAt.congr (h : GuardAt r ops)
    (hr : r'.lc = r.lc ∧ r'.alloc = r.alloc ∧ r'.irqEn = r.irqEn ∧ r'.spiLock = r.spiLock ∧ r'.seqCons = r.seqCons)
    (hops : ∀ b : Nat × HostOp, b.2.isRadioLife = true → (b ∈ ops' ↔ b ∈ ops)) : GuardAt r' ops' := by
  obtain ⟨hlc, ha, hirq, hl, hq⟩ := hr
  exact {
    unique := fun a ha b hb hla hlb => h.unique a ((hops a hla).1 ha) b ((hops b hlb).1 hb) hla hlb
    construct := fun t ch ps hop => hlc ▸ h.construct t ch ps ((hops _ rfl).1 hop)
    shutdown := fun t st hop => by
      rw [hlc, ha]
      exact h.shutdown t st ((hops _ rfl).1 hop)
    alloc := by
      rw [hlc, ha]
      exact h.alloc
    lock := by
      rw [hl]
      exact h.lock.imp_right fun ⟨t, hl, hop⟩ => ⟨t, hl, (hops _ rfl).2 hop⟩
    irq := by
      rw [ha, hirq, hq]
      exact fun hc => h.irq (hc.imp_right fun hc => hc.imp_right fun ⟨t, hop⟩ => ⟨t, (hops _ rfl).1 hop⟩) }

end

/-! ### The rows keep the guard -/

/-- The rows before S7 are left by a command row for a row before S7, or from S8. -/
theorem beforeIrq_of_consRow {s : State} {cmd : List Byte} {st : HandshakeStep} {q : ConsSeq}
    (h : consRow s = some (cmd, st, q)) (hq : q.beforeIrq = true) : s.radio.seqCons.beforeIrq = true := by
  unfold consRow at h
  split at h
  case h_5 => cases h; contradiction
  case h_1 h' | h_2 h' => rw [h']; rfl
  case h_3 h' | h_4 h' => rw [h']; rfl
  all_goals contradiction

section
variable {e : Stimulus} {s : State} {m : OpMove} {r : Radio}

/-- After a move of the only operation of the lifecycle, the only one is the move's target. -/
theorem OpMove.sole_target {x : State} (hT : TicketInv x) (hv : m.Valid x)
    (hbefore : ∀ b ∈ x.ops, b.2.isRadioLife = true → m.source = some b) :
    ∀ b ∈ (m.apply x).ops, b.2.isRadioLife = true → m.target x = some b := by
  intro b hb hlife
  obtain ⟨hmem, hne⟩ | htarget := (OpMove.mem_apply_ops hT hv b).1 hb
  · exact absurd (hbefore b hmem hlife) hne
  · exact htarget

theorem OpMove.target_mem {x : State} (hT : TicketInv x) (hv : m.Valid x) {b : Nat × HostOp}
    (h : m.target x = some b) : b ∈ (m.apply x).ops :=
  (OpMove.mem_apply_ops hT hv b).2 (.inr h)

/-- A row that leaves the operations of a construction in progress alone. -/
theorem GuardAt.construct_row (h : GuardAt s.radio s.ops) {t : Nat} {ch : Word16} {ps : List PropRecord}
    (hop : (t, .rdConstruct ch ps) ∈ s.ops)
    (hr : r.lc = s.radio.lc ∧ r.alloc = s.radio.alloc ∧ r.spiLock = s.radio.spiLock)
    (hirq : r.seqCons.beforeIrq = true → r.irqEn = false) : GuardAt r s.ops := by
  obtain ⟨hlc, ha, hl⟩ := h.constructing hop
  obtain ⟨hlc', ha', hl'⟩ := hr
  exact .of_construct (h.sole hop rfl) (hlc'.trans hlc) (ha'.trans ha) (hl'.trans hl) hirq

/-- A row that ends a construction or a shutdown. -/
theorem GuardAt.finish_row (hT : TicketInv s) (h : GuardAt s.radio s.ops) {t : Nat} {op : HostOp} {x : Response}
    (hv : (OpMove.finish t op x).Valid s) (hlife : op.isRadioLife = true)
    (ha : r.lc = .constructing ∨ r.lc = .running ∨ r.lc = .failed → r.alloc = true) (hl : r.spiLock = .free)
    (hirq : r.alloc = false ∨ r.seqCons.beforeIrq = true → r.irqEn = false) :
    GuardAt r ((OpMove.finish t op x).apply s).ops := by
  refine .of_idle (fun b hb hlifeb => ?_) ha hl hirq
  cases OpMove.sole_target hT hv (fun b hb hlifeb => congrArg some
    (h.sole (OpMove.finish_mem hv) hlife b hb hlifeb)) b hb hlifeb

/-- A row that takes a shutdown on. -/
theorem GuardAt.shutdown_row (hT : TicketInv s) (h : GuardAt s.radio s.ops) {t : Nat} {st st' : RdShut}
    (hv : (OpMove.move t (.rdShutdown st) (.rdShutdown st')).Valid s) (hlc : r.lc = s.radio.lc)
    (ha : r.alloc = s.radio.alloc) (hl : r.spiLock = .free ∨ (r.spiLock = .held (.host t) ∧ st' = .close))
    (hirq : r.seqCons.beforeIrq = true ∨ st' = .finish → r.irqEn = false) :
    GuardAt r ((OpMove.move t (.rdShutdown st) (.rdShutdown st')).apply s).ops := by
  have hop := OpMove.move_mem hv
  obtain ⟨hshut, halloc⟩ := h.shutdown t st hop
  refine .of_shutdown (OpMove.target_mem hT hv rfl) (fun b hb hlife => ?_) (hlc.trans hshut) (ha.trans halloc) hl hirq
  exact Option.some.inj (OpMove.sole_target hT hv
    (fun b hb hlife => congrArg some (h.sole hop rfl b hb hlife)) b hb hlife)

/-- A row that issues an operation of the lifecycle, with none in progress. -/
theorem OpMove.sole_issue (hT : TicketInv s) {op : HostOp}
    (hnone : ∀ b ∈ s.ops, b.2.isRadioLife = true → False) :
    ∀ b ∈ ((OpMove.issue op).apply s).ops, b.2.isRadioLife = true → (s.nextTicket, op) = b :=
  fun b hb hlife => Option.some.inj (OpMove.sole_target hT (m := .issue op) trivial
    (fun b hb hlife => (hnone b hb hlife).elim) b hb hlife)

theorem LifeRow.guardAt (hrow : LifeRow e s m r) (hT : TicketInv s) (hv : m.Valid s) (h : GuardAt s.radio s.ops) :
    GuardAt r (m.apply s).ops := by
  have hbefore (hq : s.radio.seqCons.beforeIrq = true) : s.radio.irqEn = false := h.irq (.inr (.inl hq))
  cases hrow with
  | guard ch ps hfree =>
    have hnone := h.idle (.inl hfree)
    exact .of_construct (OpMove.sole_issue hT hnone) rfl rfl (h.idleLock hnone) fun _ => h.irq (.inl hfree)
  | badConfig t ch ps x hq =>
    obtain ⟨-, -, hl⟩ := h.constructing (OpMove.finish_mem hv)
    exact h.finish_row hT hv rfl (by simp [Radio.undoGuard]) hl fun _ => hbefore (by rw [hq]; rfl)
  | configure t ch ps c hop hq =>
    exact h.construct_row hop ⟨rfl, rfl, rfl⟩ fun _ => hbefore (by rw [hq]; rfl)
  | pulse t ch ps spiOpen rst q hop hq hq' => exact h.construct_row hop ⟨rfl, rfl, rfl⟩ fun _ => hbefore hq
  | command t b ch ps cmd st q res log he hop hrow hp =>
    exact h.construct_row (s.findOp_mem t _ hop) ⟨rfl, rfl, rfl⟩ fun hq => hbefore (beforeIrq_of_consRow hrow hq)
  | fail t b ch ps cmd st q res log rst spiOpen x he hop hrow hp =>
    obtain ⟨-, ha, hl⟩ := h.constructing (OpMove.finish_mem hv)
    exact h.finish_row hT hv rfl (fun _ => ha) hl fun _ => rfl
  | irqOn t ch ps hop hq => exact h.construct_row hop ⟨rfl, rfl, rfl⟩ (by simp [ConsSeq.beforeIrq])
  | start t ch ps x hq =>
    obtain ⟨-, ha, hl⟩ := h.constructing (OpMove.finish_mem hv)
    exact h.finish_row hT hv rfl (fun _ => ha) hl (by simp [ha, ConsSeq.beforeIrq])
  | shutdown hlc =>
    have hnone := h.idle (.inr hlc)
    exact .of_shutdown (OpMove.target_mem hT hv rfl) (OpMove.sole_issue hT hnone) rfl (h.alloc (.inr (.inl hlc)))
      (.inl (h.idleLock hnone)) (by simpa using hbefore)
  | drain t =>
    refine h.shutdown_row hT hv rfl rfl (.inl ?_) (by simpa using hbefore)
    simpa using h.shutdownLock (OpMove.move_mem hv)
  | flag t =>
    refine h.shutdown_row hT hv rfl rfl (.inl ?_) (by simpa using hbefore)
    simpa using h.shutdownLock (OpMove.move_mem hv)
  | lock t hl => exact h.shutdown_row hT hv rfl rfl (.inr ⟨rfl, rfl⟩) (by simpa using hbefore)
  | close t => exact h.shutdown_row hT hv rfl rfl (.inl rfl) fun _ => rfl
  | finish t x =>
    have hop := OpMove.finish_mem hv
    obtain ⟨hlc, -⟩ := h.shutdown t _ hop
    refine h.finish_row hT hv rfl (by simp [hlc]) ?_ fun _ => h.irq (.inr (.inr ⟨t, hop⟩))
    simpa using h.shutdownLock hop

end

theorem State.hardReset_ticketInv (s : State) : TicketInv s.hardReset := ⟨List.nodup_nil, by simp [State.hardReset]⟩

theorem Effect.ticketInv {e : Stimulus} {s t : State} (h : Effect e s t) (hT : TicketInv s) : TicketInv t := by
  cases h with
  | idle => exact hT
  | answer r => exact TicketInv.apply hT (.answer r)
  | send i f u => exact TicketInv.apply hT (.issue _)
  | crc w c r => exact TicketInv.apply (s := s.setCrc c) hT (.answer r)
  | uart i u v m => exact TicketInv.apply (s := s.setUart i v) hT m
  | life m r tape limits d => exact TicketInv.apply (s := s.withTape r tape limits d) hT m
  | traffic m r tape limits d => exact TicketInv.apply (s := s.withTape r tape limits d) hT m
  | hardReset => exact s.hardReset_ticketInv

/-- A move takes no notice of the controllers and the radio. -/
theorem OpMove.apply_ops_congr (m : OpMove) {s x : State} (hops : x.ops = s.ops) (hnext : x.nextTicket = s.nextTicket) :
    (m.apply x).ops = (m.apply s).ops := by
  cases m <;> simp only [OpMove.apply, State.answered_ops, State.issued_ops, State.ended_ops, State.setOp, hops, hnext]

/-- Operations outside the lifecycle leave those of the lifecycle in progress. -/
theorem OpMove.mem_life_iff {m : OpMove} {s : State} (hT : TicketInv s) (hv : m.Valid s)
    (hm : m.Of (fun op => op.isRadioLife = false)) (b : Nat × HostOp) (hb : b.2.isRadioLife = true) :
    b ∈ (m.apply s).ops ↔ b ∈ s.ops :=
  OpMove.mem_apply_ops_of_not hT hv hm (by simp [hb])

theorem Effect.guardInv {e : Stimulus} {s t : State} (h : Effect e s t) (hinv : GuardInv s) : GuardInv t := by
  obtain ⟨hT, hG⟩ := (guardInv_iff s).1 hinv
  refine (guardInv_iff t).2 ⟨h.ticketInv hT, ?_⟩
  have hsame : s.radio.lc = s.radio.lc ∧ s.radio.alloc = s.radio.alloc ∧ s.radio.irqEn = s.radio.irqEn
      ∧ s.radio.spiLock = s.radio.spiLock ∧ s.radio.seqCons = s.radio.seqCons := ⟨rfl, rfl, rfl, rfl, rfl⟩
  cases h with
  | idle => exact hG
  | answer r => exact hG
  | crc w c r => exact hG
  | send i f u =>
    exact hG.congr hsame (OpMove.mem_life_iff hT (m := .issue (.send i f .waitLock)) trivial rfl)
  | uart i u v m hi hu hv hrow =>
    rw [OpMove.apply_radio, OpMove.apply_ops_congr (s := s) (x := s.setUart i v) m rfl rfl]
    exact hG.congr hsame (OpMove.mem_life_iff hT hv hrow.not_radioLife)
  | life m r tape limits d hi hv hrow =>
    rw [OpMove.apply_radio, OpMove.apply_ops_congr (s := s) (x := s.withTape r tape limits d) m rfl rfl]
    exact hrow.guardAt hT hv hG
  | traffic m r tape limits d hi hv hrow =>
    rw [OpMove.apply_radio, OpMove.apply_ops_congr (s := s) (x := s.withTape r tape limits d) m rfl rfl]
    exact hG.congr hrow.life (OpMove.mem_life_iff hT hv (hrow.ops.imp fun _ => HostOp.IsTraffic.not_radioLife))
  | hardReset =>
    exact .of_idle (by simp [State.hardReset]) (by simp [State.hardReset, Radio.hardReset, Radio.reset]) rfl
      fun _ => rfl

/-! ### The bounds on the radio's data -/

theorem radioDataInv_iff (s : State) :
    RadioDataInv s ↔ s.radio.Bounded ∧ ∀ t ps, (t, HostOp.rdTransmit ps) ∈ s.ops → PacketsFit ps := by
  unfold RadioDataInv Radio.Bounded PacketsFit
  constructor
  · rintro ⟨htxq, hbatch, hops, hrest⟩
    exact ⟨⟨htxq, hbatch, hrest⟩, hops⟩
  · rintro ⟨⟨htxq, hbatch, hrest⟩, hops⟩
    exact ⟨htxq, hbatch, hops, hrest⟩

theorem LifeRow.radioLife {e : Stimulus} {s : State} {m : OpMove} {r : Radio} (h : LifeRow e s m r) :
    m.Of (fun op => op.isRadioLife = true) := by
  cases h with
  | configure | pulse | command | irqOn => trivial
  | guard | badConfig | fail | start | shutdown | finish => rfl
  | drain | flag | lock | close => exact ⟨rfl, rfl⟩

theorem LifeRow.bounded {e : Stimulus} {s : State} {m : OpMove} {r : Radio} (hrow : LifeRow e s m r)
    (h : s.radio.Bounded) : r.Bounded := by
  obtain ⟨htxq, hbatch, hrx, hdata, hstore, hprops, htl, hrl, hpoll⟩ := h
  cases hrow with
  | guard =>
    exact ⟨by simp [PacketsFit, Radio.takeGuard], by simp [PacketsFit, Radio.takeGuard], by simp [Radio.takeGuard],
      hdata, hstore, hprops, htl, hrl, hpoll⟩
  | configure t ch ps c hop hq hps => exact ⟨htxq, hbatch, hrx, hdata, hstore, hps, htl, hrl, hpoll⟩
  | finish => exact ⟨by simp [PacketsFit], hbatch, hrx, hdata, hstore, hprops, htl, hrl, hpoll⟩
  | command | fail => exact ⟨htxq, hbatch, hrx, hdata, hstore, hprops, htl, hrl, rfl⟩
  | badConfig | pulse | irqOn | start | shutdown | drain | flag | lock | close =>
    exact ⟨htxq, hbatch, hrx, hdata, hstore, hprops, htl, hrl, hpoll⟩

/-- The packets of the operations in progress after a move that issues none. -/
theorem OpMove.packetsFit {m : OpMove} {s : State}
    (htarget : ∀ t ps, m.target s = some (t, .rdTransmit ps) → PacketsFit ps)
    (h : ∀ t ps, (t, HostOp.rdTransmit ps) ∈ s.ops → PacketsFit ps) :
    ∀ t ps, (t, HostOp.rdTransmit ps) ∈ (m.apply s).ops → PacketsFit ps :=
  fun t ps hop => (OpMove.mem_of_mem_apply hop).elim (h t ps) (htarget t ps)

/-- A row of a controller issues no packets. -/
theorem UartRow.not_transmit {s : State} {i : Nat} {u v : Uart} {m : OpMove} (h : UartRow s i u m v) :
    m.Of (fun op => ∀ ps, op ≠ .rdTransmit ps) := by
  cases h with
  | queues m rxq txPend rxAcc hm =>
    refine hm.imp fun op hop ps => ?_
    rintro rfl
    exact hop
  | constructFramed | constructRaw | ufRx | urTx | urRx | deliver | readError => trivial
  | ufShutdown | urShutdown | ufRelease | urClose | sendDone => simp [OpMove.Of]
  | ufJoin | ufClose | urDrain | urFlag | urJoin | sendLock | sendToTx | sendByte | sendQuiet | sendToRx =>
    simp [OpMove.Of]

theorem Effect.radioDataInv {e : Stimulus} {s t : State} (h : Effect e s t) (hinv : RadioDataInv s) :
    RadioDataInv t := by
  obtain ⟨hB, hops⟩ := (radioDataInv_iff s).1 hinv
  rw [radioDataInv_iff]
  cases h with
  | idle => exact ⟨hB, hops⟩
  | answer r => exact ⟨hB, hops⟩
  | crc w c r => exact ⟨hB, hops⟩
  | send i f u => exact ⟨hB, OpMove.packetsFit (m := .issue (.send i f .waitLock)) (by simp [OpMove.target]) hops⟩
  | uart i u v m hi hu hv hrow =>
    rw [OpMove.apply_radio]
    exact ⟨hB, OpMove.packetsFit (fun t ps ht => absurd rfl (hrow.not_transmit.target ht ps)) hops⟩
  | life m r tape limits d hi hv hrow =>
    rw [OpMove.apply_radio]
    exact ⟨hrow.bounded hB, OpMove.packetsFit (fun t ps ht => absurd (hrow.radioLife.target ht) (by
      simp [HostOp.isRadioLife])) hops⟩
  | traffic m r tape limits d hi hv hrow =>
    rw [OpMove.apply_radio]
    exact ⟨hrow.bounded hops hB, OpMove.packetsFit (hrow.fits _) hops⟩
  | hardReset =>
    refine ⟨?_, by simp [State.hardReset]⟩
    simp [Radio.Bounded, PacketsFit, State.hardReset, Radio.hardReset, Radio.reset, nProps]

/-- Settles O59. -/
theorem radioInvsKept : Obligations.RadioInvsKept := by
  unfold Obligations.RadioInvsKept
  refine ⟨fun s t hinv h => ?_, fun s t hinv h => ?_⟩ <;>
    obtain ⟨-, rfl⟩ | ⟨e, rest, hs, heff⟩ := step_effect h
  · exact hinv
  · exact heff.guardInv (s := { s with script := rest }) hinv
  · exact hinv
  · exact heff.radioDataInv (s := { s with script := rest }) hinv

end Sys2Proof.Machine
end

section
/-! PROOFS. The line invariant of the UART controllers (70_reset_and_hazards.md R360; 10_state.md R41; 42_uart_framed.md R192). -/

namespace Sys2Proof.Machine

/-! ### The line invariant, controller by controller -/

/-- The controller whose line an operation in progress relies on. -/
def HostOp.lineOf : HostOp → Option Nat
  | .send i _ _ | .ufShutdown i _ | .urShutdown i _ => some i
  | .readFrame _ _ | .urWrite _ _ | .urRead _ | .rdConstruct _ _ | .rdTransmit _ | .rdReceive | .rdShutdown _ => none

/-- What an operation with ticket `t` on controller `i` relies on, the registers of the controller being `u`. -/
def HostOp.LineOkAt (i : Nat) (u : Uart) (t : Nat) : HostOp → Prop
  | .send j _ q => j = i → u.lc = .running ∧ u.mode = .framed
      ∧ (q.locked = true → u.sendLock = .held (.host t)) ∧ (q.transmitting = true → u.dir = .tx)
  | .ufShutdown j _ => j = i → u.lc = .shut ∧ u.mode = .framed
  | .urShutdown j st => j = i → u.lc = .shut ∧ u.mode = .raw
      ∧ (st = .join ∨ st = .close → u.shutReq = true) ∧ (st = .close → u.batchInProgress = false)
  | .readFrame _ _ | .urWrite _ _ | .urRead _ | .rdConstruct _ _ | .rdTransmit _ | .rdReceive | .rdShutdown _ => True

/-- The line of controller `i`, whose registers are `u`, with the operations `ops` in progress. -/
structure LineAt (i : Nat) (u : Uart) (ops : List (Nat × HostOp)) : Prop where
  out : ∀ e ∈ u.lineOut, e.2 = .tx
  fresh : u.lc = .unconstructed → u.dir = .released ∧ u.seqUrTx = .stopped ∧ u.uartOpen = false
  running : u.lc = .running → u.uartOpen = true ∧ u.dir ≠ .released
  raw : u.seqUrTx ≠ .stopped → u.mode = .raw
  batch : u.seqUrTx = .writing ∨ u.seqUrTx = .txOff → u.dir = .tx
  dir : u.dir = .tx → u.seqUrTx = .writing ∨ u.seqUrTx = .txOff
    ∨ ∃ t f q, (t, HostOp.send i f q) ∈ ops ∧ q.transmitting = true
  ops : ∀ t op, (t, op) ∈ ops → op.LineOkAt i u t

/-- An operation relies on its own controller only. -/
theorem opOk_iff (s : State) (t : Nat) (op : HostOp) :
    OpOk s t op ↔ (∀ i, op.lineOf = some i → ∃ u, s.uarts[i]? = some u)
      ∧ ∀ i u, s.uarts[i]? = some u → op.LineOkAt i u t := by
  have hcases (i : Nat) (P : Uart → Prop) : (∃ u, s.uarts[i]? = some u ∧ P u)
      ↔ (∀ j, some i = some j → ∃ u, s.uarts[j]? = some u) ∧ ∀ j u, s.uarts[j]? = some u → i = j → P u := by
    constructor
    · rintro ⟨u, hu, hP⟩
      refine ⟨fun j hj => ?_, fun j u' hu' hj => ?_⟩
      · cases hj
        exact ⟨u, hu⟩
      · cases hj
        cases hu.symm.trans hu'
        exact hP
    · rintro ⟨hex, hall⟩
      obtain ⟨u, hu⟩ := hex i rfl
      exact ⟨u, hu, hall i u hu rfl⟩
  cases op with
  | send i f q => exact hcases i _
  | ufShutdown i st => exact hcases i _
  | urShutdown i st => exact hcases i _
  | readFrame | urWrite | urRead | rdConstruct | rdTransmit | rdReceive | rdShutdown =>
    simp [OpOk, HostOp.lineOf, HostOp.LineOkAt]

theorem lineInv_iff (s : State) : LineInv s ↔ TicketInv s
    ∧ (∀ i u, s.uarts[i]? = some u → LineAt i u s.ops)
    ∧ ∀ t op, (t, op) ∈ s.ops → ∀ i, op.lineOf = some i → ∃ u, s.uarts[i]? = some u := by
  refine and_congr_right fun _ => ⟨fun ⟨hline, hops⟩ => ⟨fun i u hu => ?_, fun t op hop => ?_⟩,
    fun ⟨hline, hops⟩ => ⟨fun i u hu => ?_, fun t op hop => ?_⟩⟩
  · obtain ⟨hout, hfresh, hrun, hraw, hbatch, hdir⟩ := hline i u hu
    exact ⟨hout, hfresh, hrun, hraw, hbatch, hdir, fun t op hop => ((opOk_iff s t op).1 (hops t op hop)).2 i u hu⟩
  · exact ((opOk_iff s t op).1 (hops t op hop)).1
  · obtain ⟨hout, hfresh, hrun, hraw, hbatch, hdir, -⟩ := hline i u hu
    exact ⟨hout, hfresh, hrun, hraw, hbatch, hdir⟩
  · exact (opOk_iff s t op).2 ⟨hops t op hop, fun i u hu => (hline i u hu).ops t op hop⟩

/-! ### Steps that leave the line alone -/

/-- The registers that the line invariant speaks of are the same. -/
def Uart.SameLine (u v : Uart) : Prop :=
  v.lc = u.lc ∧ v.mode = u.mode ∧ v.uartOpen = u.uartOpen ∧ v.dir = u.dir ∧ v.shutReq = u.shutReq
  ∧ v.sendLock = u.sendLock ∧ v.seqUrTx = u.seqUrTx ∧ v.lineOut = u.lineOut

theorem Uart.SameLine.lineOkAt {u v : Uart} (h : u.SameLine v) {i t : Nat} {op : HostOp} (hop : op.LineOkAt i u t) :
    op.LineOkAt i v t := by
  obtain ⟨hlc, hmode, -, hdir, hreq, hlock, htx, -⟩ := h
  have hbatch : v.batchInProgress = u.batchInProgress := by simp only [Uart.batchInProgress, htx]
  cases op with
  | send j f q =>
    rw [HostOp.LineOkAt, hlc, hmode, hlock, hdir]
    exact hop
  | ufShutdown j st =>
    rw [HostOp.LineOkAt, hlc, hmode]
    exact hop
  | urShutdown j st =>
    rw [HostOp.LineOkAt, hlc, hmode, hreq, hbatch]
    exact hop
  | readFrame | urWrite | urRead | rdConstruct | rdTransmit | rdReceive | rdShutdown => trivial

section
variable {i : Nat} {u v : Uart} {ops ops' : List (Nat × HostOp)}

/-- Another operation of the same kind, or none of this line, does not matter. -/
theorem HostOp.lineOkAt_of_lineOf_ne {op : HostOp} {t : Nat} (h : op.lineOf ≠ some i) : op.LineOkAt i u t := by
  cases op with
  | send | ufShutdown | urShutdown => exact fun hj => absurd (congrArg some hj) h
  | readFrame | urWrite | urRead | rdConstruct | rdTransmit | rdReceive | rdShutdown => trivial

theorem LineAt.congr (h : LineAt i u ops) (hu : u.SameLine v)
    (hops : ∀ e : Nat × HostOp, e.2.lineOf = some i → (e ∈ ops' ↔ e ∈ ops)) : LineAt i v ops' := by
  have hline := hu
  obtain ⟨hlc, hmode, hopen, hdir, -, -, htx, hout⟩ := hu
  exact {
    out := hout ▸ h.out
    fresh := by rw [hlc, hdir, htx, hopen]; exact h.fresh
    running := by rw [hlc, hopen, hdir]; exact h.running
    raw := by rw [htx, hmode]; exact h.raw
    batch := by rw [htx, hdir]; exact h.batch
    dir := by
      rw [hdir, htx]
      exact fun hd => (h.dir hd).imp_right (Or.imp_right fun ⟨t, f, q, hop, hq⟩ => ⟨t, f, q, (hops _ rfl).2 hop, hq⟩)
    ops := fun t op hop => by
      by_cases hi : op.lineOf = some i
      · exact hline.lineOkAt (h.ops t op ((hops (t, op) hi).1 hop))
      · exact HostOp.lineOkAt_of_lineOf_ne hi }

theorem Uart.SameLine.refl (u : Uart) : u.SameLine u := ⟨rfl, rfl, rfl, rfl, rfl, rfl, rfl, rfl⟩

/-! ### What the line says of the operations on it -/

theorem LineAt.send (h : LineAt i u ops) {t : Nat} {f : List Byte} {q : SendSeq} (hop : (t, .send i f q) ∈ ops) :
    u.lc = .running ∧ u.mode = .framed ∧ (q.locked = true → u.sendLock = .held (.host t))
      ∧ (q.transmitting = true → u.dir = .tx) :=
  h.ops t _ hop rfl

theorem LineAt.ufShutdown (h : LineAt i u ops) {t : Nat} {st : UfShut} (hop : (t, .ufShutdown i st) ∈ ops) :
    u.lc = .shut ∧ u.mode = .framed :=
  h.ops t _ hop rfl

theorem LineAt.urShutdown (h : LineAt i u ops) {t : Nat} {st : UrShut} (hop : (t, .urShutdown i st) ∈ ops) :
    u.lc = .shut ∧ u.mode = .raw ∧ (st = .join ∨ st = .close → u.shutReq = true)
      ∧ (st = .close → u.batchInProgress = false) :=
  h.ops t _ hop rfl

/-- A framed controller has no UR_TX. -/
theorem LineAt.stopped_of_framed (h : LineAt i u ops) (hm : u.mode = .framed) : u.seqUrTx = .stopped := by
  by_contra hne
  exact absurd (hm.symm.trans (h.raw hne)) (by decide)

/-- Nothing is in progress on the line of a controller that is not constructed. -/
theorem LineAt.none_of_unconstructed (h : LineAt i u ops) (hlc : u.lc = .unconstructed) {t : Nat} {op : HostOp}
    (hop : (t, op) ∈ ops) : op.lineOf ≠ some i := by
  intro hi
  have hne {lc : UartLc} (hlc' : u.lc = lc) (hne : lc ≠ .unconstructed) : False := hne (hlc'.symm.trans hlc)
  cases op with
  | send j f q => cases hi; exact hne (h.send hop).1 (by decide)
  | ufShutdown j st => cases hi; exact hne (h.ufShutdown hop).1 (by decide)
  | urShutdown j st => cases hi; exact hne (h.urShutdown hop).1 (by decide)
  | readFrame | urWrite | urRead | rdConstruct | rdTransmit | rdReceive | rdShutdown => contradiction

/-- The operations on the line, given by what the kinds of them say. -/
theorem lineOps_intro (hsend : ∀ t f q, (t, HostOp.send i f q) ∈ ops → (HostOp.send i f q).LineOkAt i u t)
    (huf : ∀ t st, (t, HostOp.ufShutdown i st) ∈ ops → (HostOp.ufShutdown i st).LineOkAt i u t)
    (hur : ∀ t st, (t, HostOp.urShutdown i st) ∈ ops → (HostOp.urShutdown i st).LineOkAt i u t) :
    ∀ t op, (t, op) ∈ ops → op.LineOkAt i u t := by
  intro t op hop
  by_cases hi : op.lineOf = some i
  · cases op with
    | send j f q => cases hi; exact hsend t f q hop
    | ufShutdown j st => cases hi; exact huf t st hop
    | urShutdown j st => cases hi; exact hur t st hop
    | readFrame | urWrite | urRead | rdConstruct | rdTransmit | rdReceive | rdShutdown => contradiction
  · exact HostOp.lineOkAt_of_lineOf_ne hi

end

/-! ### The rows of a shutdown -/

section
variable {i : Nat} {u v : Uart} {ops ops' : List (Nat × HostOp)}

/-- A controller in SHUT with no send in progress. -/
theorem LineAt.of_shut (h : LineAt i u ops)
    (hv : v.lc = .shut ∧ v.mode = u.mode ∧ v.seqUrTx = u.seqUrTx ∧ v.lineOut = u.lineOut)
    (hdir : v.dir = u.dir ∨ (v.dir = .released ∧ u.batchInProgress = false))
    (hold : ∀ t f q, (t, HostOp.send i f q) ∉ ops) (hsend : ∀ t f q, (t, HostOp.send i f q) ∉ ops')
    (huf : ∀ t st, (t, HostOp.ufShutdown i st) ∈ ops' → u.mode = .framed)
    (hur : ∀ t st, (t, HostOp.urShutdown i st) ∈ ops' → u.mode = .raw
      ∧ (st = .join ∨ st = .close → v.shutReq = true) ∧ (st = .close → u.batchInProgress = false)) :
    LineAt i v ops' := by
  obtain ⟨hlc, hmode, htx, hout⟩ := hv
  have hbatch : v.batchInProgress = u.batchInProgress := by simp only [Uart.batchInProgress, htx]
  exact {
    out := hout ▸ h.out
    fresh := fun hlc' => absurd (hlc.symm.trans hlc') (by decide)
    running := fun hlc' => absurd (hlc.symm.trans hlc') (by decide)
    raw := by rw [htx, hmode]; exact h.raw
    batch := fun hq => by
      rw [htx] at hq
      obtain hd | ⟨-, hb⟩ := hdir
      · exact hd.trans (h.batch hq)
      · obtain hq | hq := hq <;> simp [Uart.batchInProgress, hq] at hb
    dir := fun hd => by
      obtain hd' | ⟨hd', -⟩ := hdir
      · rw [htx]
        obtain hq | hq | ⟨t, f, q, hop, -⟩ := h.dir (hd'.symm.trans hd)
        · exact .inl hq
        · exact .inr (.inl hq)
        · exact absurd hop (hold t f q)
      · exact absurd (hd'.symm.trans hd) (by decide)
    ops := lineOps_intro (fun t f q hop => absurd hop (hsend t f q))
      (fun t st hop _ => ⟨hlc, hmode.trans (huf t st hop)⟩)
      (fun t st hop _ => by
        obtain ⟨hm, hreq, hb⟩ := hur t st hop
        exact ⟨hlc, hmode.trans hm, hreq, hbatch ▸ hb⟩) }

end

section
variable {s : State} {m : OpMove} {i : Nat} {u v : Uart}

/-- A row of a `UF.SHUTDOWN` in progress. -/
theorem LineAt.ufShutdown_row (h : LineAt i u s.ops) {t : Nat} {st : UfShut}
    (hop : (t, .ufShutdown i st) ∈ s.ops) (htarget : ∀ e, m.target s = some e → ∃ st', e.2 = .ufShutdown i st')
    (hv : v.lc = u.lc ∧ v.mode = u.mode ∧ v.seqUrTx = u.seqUrTx ∧ v.lineOut = u.lineOut)
    (hdir : v.dir = u.dir ∨ v.dir = .released) : LineAt i v (m.apply s).ops := by
  obtain ⟨hlc, hm⟩ := h.ufShutdown hop
  have hbatch : u.batchInProgress = false := by simp [Uart.batchInProgress, h.stopped_of_framed hm]
  have hsub (e : Nat × HostOp) (he : e ∈ (m.apply s).ops) := (OpMove.mem_of_mem_apply he).imp_right (htarget e)
  have hold (t : Nat) (f : List Byte) (q : SendSeq) : (t, HostOp.send i f q) ∉ s.ops :=
    fun hop' => absurd (hlc.symm.trans (h.send hop').1) (by decide)
  refine h.of_shut ⟨hv.1.trans hlc, hv.2⟩ (hdir.imp_right fun hd => ⟨hd, hbatch⟩) hold (fun t f q hop' => ?_)
    (fun _ _ _ => hm) (fun t st hop' => ?_)
  · obtain hop' | ⟨st', hop'⟩ := hsub _ hop'
    · exact hold t f q hop'
    · contradiction
  · obtain hop' | ⟨st', hop'⟩ := hsub _ hop'
    · exact absurd (hm.symm.trans (h.urShutdown hop').2.1) (by decide)
    · contradiction

/-- A row of a `UR.SHUTDOWN` in progress. -/
theorem LineAt.urShutdown_row (h : LineAt i u s.ops) {t : Nat} {st : UrShut}
    (hop : (t, .urShutdown i st) ∈ s.ops) (htarget : ∀ e, m.target s = some e → ∃ st', e.2 = .urShutdown i st'
      ∧ (st' = .join ∨ st' = .close → v.shutReq = true) ∧ (st' = .close → u.batchInProgress = false))
    (hv : v.lc = u.lc ∧ v.mode = u.mode ∧ v.seqUrTx = u.seqUrTx ∧ v.lineOut = u.lineOut)
    (hreq : u.shutReq = true → v.shutReq = true)
    (hdir : v.dir = u.dir ∨ (v.dir = .released ∧ u.batchInProgress = false)) : LineAt i v (m.apply s).ops := by
  obtain ⟨hlc, hm, -⟩ := h.urShutdown hop
  have hsub (e : Nat × HostOp) (he : e ∈ (m.apply s).ops) := (OpMove.mem_of_mem_apply he).imp_right (htarget e)
  have hold (t : Nat) (f : List Byte) (q : SendSeq) : (t, HostOp.send i f q) ∉ s.ops :=
    fun hop' => absurd (hlc.symm.trans (h.send hop').1) (by decide)
  refine h.of_shut ⟨hv.1.trans hlc, hv.2⟩ hdir hold (fun t f q hop' => ?_) (fun t st hop' => ?_)
    (fun t st hop' => ⟨hm, ?_⟩)
  · obtain hop' | ⟨st', hop', -⟩ := hsub _ hop'
    · exact hold t f q hop'
    · contradiction
  · obtain hop' | ⟨st', hop', -⟩ := hsub _ hop'
    · exact absurd (hm.symm.trans (h.ufShutdown hop').2) (by decide)
    · contradiction
  · obtain hop' | ⟨st', hop', hst'⟩ := hsub _ hop'
    · obtain ⟨-, -, hreq', hb⟩ := h.urShutdown hop'
      exact ⟨fun hst => hreq (hreq' hst), hb⟩
    · cases hop'
      exact hst'

end

/-! ### The rows of a send -/

theorem SendSeq.locked_of_transmitting {q : SendSeq} (h : q.transmitting = true) : q.locked = true := by
  cases q with
  | write | flush | hold | toRx => rfl
  | idle | waitLock | toTx | done => contradiction

section
variable {i : Nat} {u v : Uart} {ops ops' : List (Nat × HostOp)}

/-- A row of a send in progress. -/
theorem LineAt.of_send (h : LineAt i u ops) {t : Nat} {f : List Byte} {q : SendSeq} (hop : (t, .send i f q) ∈ ops)
    (hsub : ∀ e ∈ ops', e ∈ ops ∨ ∃ f' q', e.2 = .send i f' q')
    (hv : v.lc = u.lc ∧ v.mode = u.mode ∧ v.uartOpen = u.uartOpen ∧ v.seqUrTx = u.seqUrTx)
    (hout : ∀ e ∈ v.lineOut, e.2 = .tx) (hdir : v.dir ≠ .released)
    (hsent : v.dir = .tx → ∃ t f q, (t, HostOp.send i f q) ∈ ops' ∧ q.transmitting = true)
    (hsends : ∀ t' f' q', (t', HostOp.send i f' q') ∈ ops' →
      (q'.locked = true → v.sendLock = .held (.host t')) ∧ (q'.transmitting = true → v.dir = .tx)) :
    LineAt i v ops' := by
  obtain ⟨hlc, hm, -⟩ := h.send hop
  obtain ⟨hlc', hm', hopen, htx⟩ := hv
  have hstop : v.seqUrTx = .stopped := htx.trans (h.stopped_of_framed hm)
  exact {
    out := hout
    fresh := fun hlc'' => absurd ((hlc'.trans hlc).symm.trans hlc'') (by decide)
    running := fun _ => ⟨hopen.trans (h.running hlc).1, hdir⟩
    raw := fun hne => absurd hstop hne
    batch := fun hq => by rw [hstop] at hq; simp at hq
    dir := fun hd => .inr (.inr (hsent hd))
    ops := lineOps_intro (fun t' f' q' hop' _ => ⟨hlc'.trans hlc, hm'.trans hm, hsends t' f' q' hop'⟩)
      (fun t' st hop' => by
        obtain hop' | ⟨f', q', hop'⟩ := hsub _ hop'
        · exact absurd (hlc.symm.trans (h.ufShutdown hop').1) (by decide)
        · contradiction)
      (fun t' st hop' => by
        obtain hop' | ⟨f', q', hop'⟩ := hsub _ hop'
        · exact absurd (hlc.symm.trans (h.urShutdown hop').1) (by decide)
        · contradiction) }

/-- The frame is on the line by a send that transmits. -/
theorem LineAt.exists_send (h : LineAt i u ops) (hm : u.mode = .framed) (hd : u.dir = .tx) :
    ∃ t f q, (t, HostOp.send i f q) ∈ ops ∧ q.transmitting = true := by
  have hstop := h.stopped_of_framed hm
  obtain hq | hq | hsend := h.dir hd
  · exact absurd (hstop.symm.trans hq) (by decide)
  · exact absurd (hstop.symm.trans hq) (by decide)
  · exact hsend

end

section
variable {s : State} {i : Nat} {u : Uart}

/-- SENDLOCK is held by one send only. -/
theorem LineAt.others_unlocked (h : LineAt i u s.ops) (hT : TicketInv s) {t : Nat} {f : List Byte} {q : SendSeq}
    (hop : (t, .send i f q) ∈ s.ops) (hq : q.locked = true) {t' : Nat} {f' : List Byte} {q' : SendSeq}
    (hop' : (t', .send i f' q') ∈ s.ops) (hne : (t', HostOp.send i f' q') ≠ (t, .send i f q)) : q'.locked = false := by
  obtain ⟨-, -, hlock, -⟩ := h.send hop
  obtain ⟨-, -, hlock', -⟩ := h.send hop'
  refine Bool.eq_false_iff.2 fun hq' => hne ?_
  have htt : t' = t := by
    have := (hlock' hq').symm.trans (hlock hq)
    cases this
    rfl
  subst htt
  exact Prod.ext rfl (hT.eq_of_ticket hop' hop)

theorem OpMove.mem_move_iff (hT : TicketInv s) {t : Nat} {op op' : HostOp} (hv : (OpMove.move t op op').Valid s)
    {e : Nat × HostOp} :
    e ∈ ((OpMove.move t op op').apply s).ops ↔ (e ∈ s.ops ∧ e ≠ (t, op)) ∨ e = (t, op') := by
  rw [OpMove.mem_apply_ops hT hv]
  simp [OpMove.source, OpMove.target, eq_comm]

theorem OpMove.mem_finish_iff (hT : TicketInv s) {t : Nat} {op : HostOp} {r : Response}
    (hv : (OpMove.finish t op r).Valid s) {e : Nat × HostOp} :
    e ∈ ((OpMove.finish t op r).apply s).ops ↔ e ∈ s.ops ∧ e ≠ (t, op) := by
  rw [OpMove.mem_apply_ops hT hv]
  simp [OpMove.source, OpMove.target, eq_comm]

/-- A row in which a send goes on to another, locked row without touching SENDLOCK. -/
theorem LineAt.send_move (h : LineAt i u s.ops) (hT : TicketInv s) {v : Uart} {t : Nat} {f : List Byte} {q q' : SendSeq}
    (hv : (OpMove.move t (.send i f q) (.send i f q')).Valid s) (hq : q.locked = true)
    (huv : v.lc = u.lc ∧ v.mode = u.mode ∧ v.uartOpen = u.uartOpen ∧ v.seqUrTx = u.seqUrTx)
    (hlock : v.sendLock = u.sendLock) (hout : ∀ e ∈ v.lineOut, e.2 = .tx) (hdir : v.dir ≠ .released)
    (hsent : v.dir = .tx → q'.transmitting = true) (hq' : q'.transmitting = true → v.dir = .tx) :
    LineAt i v ((OpMove.move t (.send i f q) (.send i f q')).apply s).ops := by
  have hop := OpMove.move_mem hv
  obtain ⟨-, -, hheld, -⟩ := h.send hop
  refine h.of_send hop (fun e he => ?_) huv hout hdir
    (fun hd => ⟨t, f, q', (OpMove.mem_move_iff hT hv).2 (.inr rfl), hsent hd⟩) (fun t' f' q'' hop' => ?_)
  · obtain ⟨he, -⟩ | rfl := (OpMove.mem_move_iff hT hv).1 he
    · exact .inl he
    · exact .inr ⟨f, q', rfl⟩
  · obtain ⟨hop', hne⟩ | heq := (OpMove.mem_move_iff hT hv).1 hop'
    · have hunlocked := h.others_unlocked hT hop hq hop' hne
      refine ⟨fun hl => absurd hl (ne_true_of_eq_false hunlocked), fun htr => ?_⟩
      exact absurd (SendSeq.locked_of_transmitting htr) (ne_true_of_eq_false hunlocked)
    · cases heq
      exact ⟨fun _ => hlock.trans (hheld hq), hq'⟩

/-- Row WAIT_LOCK with SENDLOCK free. -/
theorem LineAt.send_lock (h : LineAt i u s.ops) (hT : TicketInv s) {t : Nat} {f : List Byte}
    (hv : (OpMove.move t (.send i f .waitLock) (.send i f .toTx)).Valid s) (hfree : u.sendLock = .free) :
    LineAt i { u with sendLock := .held (.host t) }
      ((OpMove.move t (.send i f .waitLock) (.send i f .toTx)).apply s).ops := by
  have hop := OpMove.move_mem hv
  obtain ⟨hlc, hm, -⟩ := h.send hop
  have hnone {t' : Nat} {f' : List Byte} {q' : SendSeq} (hop' : (t', .send i f' q') ∈ s.ops)
      (hq' : q'.locked = true) : False := by
    obtain ⟨-, -, hheld, -⟩ := h.send hop'
    exact absurd (hfree.symm.trans (hheld hq')) (by simp)
  refine h.of_send hop (fun e he => ?_) ⟨rfl, rfl, rfl, rfl⟩ h.out (h.running hlc).2 (fun hd => ?_)
    (fun t' f' q' hop' => ?_)
  · obtain ⟨he, -⟩ | rfl := (OpMove.mem_move_iff hT hv).1 he
    · exact .inl he
    · exact .inr ⟨f, _, rfl⟩
  · obtain ⟨t', f', q', hop', hq'⟩ := h.exists_send hm hd
    exact (hnone hop' (SendSeq.locked_of_transmitting hq')).elim
  · obtain ⟨hop', -⟩ | heq := (OpMove.mem_move_iff hT hv).1 hop'
    · exact ⟨fun hl => (hnone hop' hl).elim, fun htr => (hnone hop' (SendSeq.locked_of_transmitting htr)).elim⟩
    · cases heq
      exact ⟨fun _ => rfl, fun htr => by contradiction⟩

/-- Row DONE: SENDLOCK is freed and the send ends. -/
theorem LineAt.send_done (h : LineAt i u s.ops) (hT : TicketInv s) {t : Nat} {f : List Byte} {r : Response}
    (hv : (OpMove.finish t (.send i f .done) r).Valid s) :
    LineAt i { u with sendLock := .free } ((OpMove.finish t (.send i f .done) r).apply s).ops := by
  have hop := OpMove.finish_mem hv
  obtain ⟨hlc, hm, -⟩ := h.send hop
  refine h.of_send hop (fun e he => .inl ((OpMove.mem_finish_iff hT hv).1 he).1) ⟨rfl, rfl, rfl, rfl⟩ h.out
    (h.running hlc).2 (fun hd => ?_) (fun t' f' q' hop' => ?_)
  · obtain ⟨t', f', q', hop', hq'⟩ := h.exists_send hm hd
    refine ⟨t', f', q', (OpMove.mem_finish_iff hT hv).2 ⟨hop', fun heq => ?_⟩, hq'⟩
    cases heq
    contradiction
  · obtain ⟨hop', hne⟩ := (OpMove.mem_finish_iff hT hv).1 hop'
    have hunlocked := h.others_unlocked hT hop rfl hop' hne
    refine ⟨fun hl => absurd hl (ne_true_of_eq_false hunlocked), fun htr => ?_⟩
    exact absurd (SendSeq.locked_of_transmitting htr) (ne_true_of_eq_false hunlocked)

end

/-! ### The rows of UR_TX -/

theorem Uart.urTxStep_sameLine_or (c : Config) (u : Uart) :
    u.SameLine (u.urTxStep c)
    ∨ (u.seqUrTx = .wait ∧ u.shutReq = true ∧ u.urTxStep c = { u with seqUrTx := .stopped })
    ∨ (u.seqUrTx = .wait ∧ u.shutReq = false
      ∧ u.urTxStep c = { u with txBatch := u.txPend, txPend := [], seqUrTx := .drained })
    ∨ (u.seqUrTx = .drained ∧ u.urTxStep c = { u with dir := .tx, seqUrTx := .writing })
    ∨ (u.seqUrTx = .writing ∧ u.urTxStep c = { u.txAll c u.txBatch with seqUrTx := .txOff })
    ∨ (u.seqUrTx = .txOff ∧ u.urTxStep c = { u with dir := .rx, txBatch := [], seqUrTx := .wait }) := by
  cases hq : u.seqUrTx with
  | stopped =>
    refine .inl ?_
    rw [Uart.urTxStep, hq]
    exact .refl u
  | drained => exact .inr (.inr (.inr (.inl ⟨rfl, by rw [Uart.urTxStep, hq]⟩)))
  | writing => exact .inr (.inr (.inr (.inr (.inl ⟨rfl, by rw [Uart.urTxStep, hq]⟩))))
  | txOff => exact .inr (.inr (.inr (.inr (.inr ⟨rfl, by rw [Uart.urTxStep, hq]⟩))))
  | wait =>
    by_cases hr : u.shutReq = true
    · exact .inr (.inl ⟨rfl, hr, by simp only [Uart.urTxStep, hq, hr, if_true]⟩)
    · by_cases hd : (!u.txPend.isEmpty && u.txLock.isFree) = true
      · exact .inr (.inr (.inl ⟨rfl, Bool.eq_false_iff.2 hr, by simp only [Uart.urTxStep, hq, hr, hd, if_true]; rfl⟩))
      · refine .inl ?_
        have : u.urTxStep c = u := by simp only [Uart.urTxStep, hq, hr, hd]; rfl
        rw [this]
        exact .refl u

end Sys2Proof.Machine
end

section
/-! PROOFS. Every row of a UART controller keeps the line invariant (70_reset_and_hazards.md R360). -/

namespace Sys2Proof.Machine

section
variable {i : Nat} {u v : Uart} {ops : List (Nat × HostOp)}

/-! ### The rows of UR_TX -/

/-- While UR_TX is at work the controller is raw, and no send is in progress on it. -/
theorem LineAt.no_send_of_urTx (h : LineAt i u ops) (hq : u.seqUrTx ≠ .stopped) {t : Nat} {f : List Byte}
    {q : SendSeq} : (t, HostOp.send i f q) ∉ ops :=
  fun hop => absurd ((h.raw hq).symm.trans (h.send hop).2.1) (by decide)

/-- A row of UR_TX. -/
theorem LineAt.of_urTx (h : LineAt i u ops) (hq : u.seqUrTx ≠ .stopped)
    (hv : v.lc = u.lc ∧ v.mode = u.mode ∧ v.uartOpen = u.uartOpen ∧ v.shutReq = u.shutReq)
    (hout : ∀ e ∈ v.lineOut, e.2 = .tx) (hdir : u.dir ≠ .released → v.dir ≠ .released)
    (hbatch : v.dir = .tx ↔ v.seqUrTx = .writing ∨ v.seqUrTx = .txOff)
    (hclose : ∀ t, (t, HostOp.urShutdown i .close) ∈ ops → v.batchInProgress = false) : LineAt i v ops := by
  obtain ⟨hlc, hm, hopen, hreq⟩ := hv
  have hraw := h.raw hq
  exact {
    out := hout
    fresh := fun hlc' => absurd (h.fresh (hlc.symm.trans hlc')).2.1 hq
    running := fun hlc' => by
      obtain ⟨ho, hd⟩ := h.running (hlc.symm.trans hlc')
      exact ⟨hopen.trans ho, hdir hd⟩
    raw := fun _ => hm.trans hraw
    batch := hbatch.2
    dir := fun hd => (hbatch.1 hd).imp_right .inl
    ops := lineOps_intro (fun t f q hop => absurd hop (h.no_send_of_urTx hq))
      (fun t st hop => absurd (hraw.symm.trans (h.ufShutdown hop).2) (by decide))
      (fun t st hop _ => by
        obtain ⟨hlc', -, hreq', -⟩ := h.urShutdown hop
        exact ⟨hlc.trans hlc', hm.trans hraw, fun hst => hreq.trans (hreq' hst), fun hst => hclose t (hst ▸ hop)⟩) }

/-- DIR is not TX before the batch is on the line. -/
theorem LineAt.dir_ne_tx (h : LineAt i u ops) (hq : u.seqUrTx = .wait ∨ u.seqUrTx = .drained) : u.dir ≠ .tx := by
  intro hd
  have hne : u.seqUrTx ≠ .stopped := by obtain hq | hq := hq <;> simp [hq]
  obtain hq' | hq' | ⟨t, f, q, hop, -⟩ := h.dir hd
  · obtain hq | hq := hq <;> exact absurd (hq.symm.trans hq') (by decide)
  · obtain hq | hq := hq <;> exact absurd (hq.symm.trans hq') (by decide)
  · exact h.no_send_of_urTx hne hop

/-- A shutdown about to close the port finds no batch in progress. -/
theorem LineAt.not_closing (h : LineAt i u ops) (hb : u.batchInProgress = true) {t : Nat}
    (hop : (t, HostOp.urShutdown i .close) ∈ ops) : False :=
  ne_true_of_eq_false ((h.urShutdown hop).2.2.2 rfl) hb

theorem LineAt.urTxStep (h : LineAt i u ops) (c : Config) : LineAt i (u.urTxStep c) ops := by
  obtain hsame | ⟨hq, -, hstep⟩ | ⟨hq, hreq, hstep⟩ | ⟨hq, hstep⟩ | ⟨hq, hstep⟩ | ⟨hq, hstep⟩ :=
    Uart.urTxStep_sameLine_or c u
  · exact h.congr hsame fun _ _ => Iff.rfl
  · rw [hstep]
    refine h.of_urTx (by simp [hq]) ⟨rfl, rfl, rfl, rfl⟩ h.out id ?_ (fun _ _ => rfl)
    simp [h.dir_ne_tx (.inl hq)]
  · rw [hstep]
    refine h.of_urTx (by simp [hq]) ⟨rfl, rfl, rfl, rfl⟩ h.out id ?_ (fun t hop => ?_)
    · simp [h.dir_ne_tx (.inl hq)]
    · exact absurd ((h.urShutdown hop).2.2.1 (.inr rfl)) (ne_true_of_eq_false hreq)
  · rw [hstep]
    refine h.of_urTx (by simp [hq]) ⟨rfl, rfl, rfl, rfl⟩ h.out (fun _ => by simp) (by simp) (fun t hop => ?_)
    exact (h.not_closing (by simp [Uart.batchInProgress, hq]) hop).elim
  · have hd : u.dir = .tx := h.batch (.inl hq)
    obtain ⟨o, a, l, htx, ho⟩ := Uart.txAll_spec c u.txBatch u
    rw [hstep, htx]
    refine h.of_urTx (by simp [hq]) ⟨rfl, rfl, rfl, rfl⟩ (List.forall_mem_append.2 ⟨h.out, fun e he => ?_⟩) id
      (by simp [hd]) (fun t hop => ?_)
    · rw [ho e he, hd]
    · exact (h.not_closing (by simp [Uart.batchInProgress, hq]) hop).elim
  · rw [hstep]
    exact h.of_urTx (by simp [hq]) ⟨rfl, rfl, rfl, rfl⟩ h.out (fun _ => by simp) (by simp) (fun _ _ => rfl)

/-! ### Construction, the receiver and the queues -/

/-- A controller is constructed: nothing is in progress on it, and nothing was on its line with another DIR. -/
theorem LineAt.of_construct (h : LineAt i u ops) (hlc : u.lc = .unconstructed)
    (hv : v.lc = .running ∧ v.uartOpen = true ∧ v.dir = .rx ∧ v.lineOut = u.lineOut)
    (hq : v.seqUrTx = .stopped ∨ (v.seqUrTx = .wait ∧ v.mode = .raw)) : LineAt i v ops := by
  obtain ⟨hlc', hopen, hd, hout⟩ := hv
  exact {
    out := hout ▸ h.out
    fresh := fun hl => absurd (hlc'.symm.trans hl) (by decide)
    running := fun _ => ⟨hopen, by simp [hd]⟩
    raw := fun hne => (hq.resolve_left hne).2
    batch := fun hb => by obtain hq | ⟨hq, -⟩ := hq <;> simp [hq] at hb
    dir := fun hd' => absurd (hd.symm.trans hd') (by decide)
    ops := fun t op hop => HostOp.lineOkAt_of_lineOf_ne (h.none_of_unconstructed hlc hop) }

theorem Uart.receive_sameLine (u : Uart) : u.SameLine u.receive := ⟨rfl, rfl, rfl, rfl, rfl, rfl, rfl, rfl⟩

theorem Uart.ufRxStep_sameLine (u : Uart) : u.SameLine u.ufRxStep := by
  unfold Uart.ufRxStep
  split
  · exact .refl u
  · exact ⟨rfl, rfl, rfl, rfl, rfl, rfl, rfl, rfl⟩
  · split_ifs
    · exact ⟨rfl, rfl, rfl, rfl, rfl, rfl, rfl, rfl⟩
    · exact ⟨rfl, rfl, rfl, rfl, rfl, rfl, rfl, rfl⟩
    · exact u.receive_sameLine
    · exact .refl u

theorem Uart.urRxStep_sameLine (u : Uart) : u.SameLine u.urRxStep := by
  unfold Uart.urRxStep
  split
  · split_ifs
    · exact ⟨rfl, rfl, rfl, rfl, rfl, rfl, rfl, rfl⟩
    · exact ⟨rfl, rfl, rfl, rfl, rfl, rfl, rfl, rfl⟩
    · exact .refl u
  · split_ifs
    · exact ⟨rfl, rfl, rfl, rfl, rfl, rfl, rfl, rfl⟩
    · exact .refl u
  · exact .refl u

theorem Uart.deliver_sameLine (c : Config) (bs : List Byte) (u : Uart) : u.SameLine (u.deliver c bs) := by
  obtain ⟨a, l, h⟩ := Uart.deliver_spec c bs u
  rw [h]
  exact ⟨rfl, rfl, rfl, rfl, rfl, rfl, rfl, rfl⟩

end

/-! ### Every row -/

section
variable {s : State} {i : Nat} {u v : Uart} {m : OpMove}

theorem HostOp.WaitsAt.lineOf {op : HostOp} (h : op.WaitsAt i) : op.lineOf = none := by
  cases op with
  | readFrame | urWrite | urRead => rfl
  | send | ufShutdown | urShutdown | rdConstruct | rdTransmit | rdReceive | rdShutdown => exact h.elim

/-- No send is in progress on the controller (U1). -/
theorem not_mem_of_sendInProgress (h : s.sendInProgress i = false) (t : Nat) (f : List Byte) (q : SendSeq) :
    (t, HostOp.send i f q) ∉ s.ops := by
  intro hop
  have hall := List.any_eq_false.1 h _ hop
  simp at hall

/-- The row in which `UF.SHUTDOWN` or `UR.SHUTDOWN` is issued. -/
theorem LineAt.issue_shutdown (h : LineAt i u s.ops) {op : HostOp} (hlc : u.lc = .running) (hvlc : v.lc = .shut)
    (hv : v.mode = u.mode ∧ v.seqUrTx = u.seqUrTx ∧ v.lineOut = u.lineOut) (hdir : v.dir = u.dir)
    (hop : (op = .ufShutdown i .join ∧ u.mode = .framed ∧ s.sendInProgress i = false)
      ∨ (op = .urShutdown i .drain ∧ u.mode = .raw)) :
    LineAt i v ((OpMove.issue op).apply s).ops := by
  have hold (t : Nat) (f : List Byte) (q : SendSeq) (hmem : (t, HostOp.send i f q) ∈ s.ops) : False := by
    obtain ⟨-, -, hsend⟩ | ⟨-, hm⟩ := hop
    · exact not_mem_of_sendInProgress hsend t f q hmem
    · exact absurd (hm.symm.trans (h.send hmem).2.1) (by decide)
  refine h.of_shut ⟨hvlc, hv⟩ (.inl hdir) hold (fun t f q hmem => ?_) (fun t st hmem => ?_) (fun t st hmem => ?_)
  · obtain hmem | htarget := OpMove.mem_of_mem_apply hmem
    · exact hold t f q hmem
    · obtain ⟨rfl, -⟩ | ⟨rfl, -⟩ := hop <;> cases htarget
  · obtain hmem | htarget := OpMove.mem_of_mem_apply hmem
    · exact absurd (hlc.symm.trans (h.ufShutdown hmem).1) (by decide)
    · obtain ⟨rfl, hm, -⟩ | ⟨rfl, -⟩ := hop <;> cases htarget
      exact hm
  · obtain hmem | htarget := OpMove.mem_of_mem_apply hmem
    · exact absurd (hlc.symm.trans (h.urShutdown hmem).1) (by decide)
    · obtain ⟨rfl, -⟩ | ⟨rfl, hm⟩ := hop <;> cases htarget
      exact ⟨hm, by simp, by simp⟩

theorem UartRow.lineAt (hrow : UartRow s i u m v) (hT : TicketInv s) (hv : m.Valid s) (h : LineAt i u s.ops) :
    LineAt i v (m.apply s).ops := by
  cases hrow with
  | constructFramed baud r hlc =>
    exact h.of_construct hlc ⟨rfl, rfl, rfl, rfl⟩ (.inl (h.fresh hlc).2.1)
  | constructRaw c r hlc => exact h.of_construct hlc ⟨rfl, rfl, rfl, rfl⟩ (.inr ⟨rfl, rfl⟩)
  | queues m rxq txPend rxAcc hm =>
    refine h.congr ⟨rfl, rfl, rfl, rfl, rfl, rfl, rfl, rfl⟩ fun e he =>
      OpMove.mem_apply_ops_of_not hT hv hm fun hw => ?_
    rw [hw.lineOf] at he
    contradiction
  | ufShutdown hlc hm hsend => exact h.issue_shutdown hlc rfl ⟨rfl, rfl, rfl⟩ rfl (.inl ⟨rfl, hm, hsend⟩)
  | ufJoin t =>
    exact h.ufShutdown_row (OpMove.move_mem hv) (fun e he => by cases he; exact ⟨_, rfl⟩)
      ⟨rfl, rfl, rfl, rfl⟩ (.inl rfl)
  | ufClose t =>
    exact h.ufShutdown_row (OpMove.move_mem hv) (fun e he => by cases he; exact ⟨_, rfl⟩)
      ⟨rfl, rfl, rfl, rfl⟩ (.inl rfl)
  | ufRelease t r =>
    exact h.ufShutdown_row (OpMove.finish_mem hv) (fun e he => by cases he)
      ⟨rfl, rfl, rfl, rfl⟩ (.inr rfl)
  | urShutdown hlc hm => exact h.issue_shutdown hlc rfl ⟨rfl, rfl, rfl⟩ rfl (.inr ⟨rfl, hm⟩)
  | urDrain t =>
    exact h.urShutdown_row (OpMove.move_mem hv)
      (fun e he => by cases he; exact ⟨_, rfl, by simp, by simp⟩) ⟨rfl, rfl, rfl, rfl⟩ id (.inl rfl)
  | urFlag t =>
    exact h.urShutdown_row (OpMove.move_mem hv)
      (fun e he => by cases he; exact ⟨_, rfl, fun _ => rfl, by simp⟩) ⟨rfl, rfl, rfl, rfl⟩
      (fun _ => rfl) (.inl rfl)
  | urJoin t hb =>
    have hop := OpMove.move_mem hv
    have hreq : u.shutReq = true := (h.urShutdown hop).2.2.1 (.inl rfl)
    exact h.urShutdown_row hop
      (fun e he => by cases he; exact ⟨_, rfl, fun _ => hreq, fun _ => hb⟩) ⟨rfl, rfl, rfl, rfl⟩ id
      (.inl rfl)
  | urClose t r =>
    have hop := OpMove.finish_mem hv
    exact h.urShutdown_row hop (fun e he => by cases he) ⟨rfl, rfl, rfl, rfl⟩ id
      (.inr ⟨rfl, (h.urShutdown hop).2.2.2 rfl⟩)
  | sendLock t f hfree => exact h.send_lock hT hv hfree
  | sendToTx t f =>
    exact h.send_move hT hv rfl ⟨rfl, rfl, rfl, rfl⟩ rfl h.out (by simp) (fun _ => rfl) (fun _ => rfl)
  | sendByte t f q q' b hq hq' =>
    obtain ⟨-, -, -, hd⟩ := h.send (OpMove.move_mem hv)
    obtain ⟨o, a, l, htx, ho⟩ := Uart.tx_spec s.cfg u b
    have hout : ∀ e ∈ u.lineOut ++ o, e.2 = .tx := by
      refine List.forall_mem_append.2 ⟨h.out, ?_⟩
      obtain rfl | ⟨-, rfl⟩ := ho
      · simp
      · exact List.forall_mem_singleton.2 (hd hq)
    rw [htx]
    exact h.send_move hT hv (SendSeq.locked_of_transmitting hq) ⟨rfl, rfl, rfl, rfl⟩ rfl hout
      (by simp [hd hq]) (fun _ => hq') (fun _ => hd hq)
  | sendQuiet t f q q' hq hq' =>
    obtain ⟨-, -, -, hd⟩ := h.send (OpMove.move_mem hv)
    exact h.send_move hT hv (SendSeq.locked_of_transmitting hq) ⟨rfl, rfl, rfl, rfl⟩ rfl h.out
      (by simp [hd hq]) (fun _ => hq') (fun _ => hd hq)
  | sendToRx t f =>
    exact h.send_move hT hv rfl ⟨rfl, rfl, rfl, rfl⟩ rfl h.out (by simp) (by simp) (fun htr => by contradiction)
  | sendDone t f r => exact h.send_done hT hv
  | ufRx => exact h.congr u.ufRxStep_sameLine fun _ _ => Iff.rfl
  | urTx => exact h.urTxStep s.cfg
  | urRx => exact h.congr u.urRxStep_sameLine fun _ _ => Iff.rfl
  | deliver bs => exact h.congr (u.deliver_sameLine s.cfg bs) fun _ _ => Iff.rfl
  | readError => exact h.congr ⟨rfl, rfl, rfl, rfl, rfl, rfl, rfl, rfl⟩ fun _ _ => Iff.rfl

/-- The operations of a row are of its own controller. -/
theorem UartRow.lineOf (hrow : UartRow s i u m v) : m.Of (fun op => ∀ j, op.lineOf = some j → i = j) := by
  cases hrow with
  | queues m rxq txPend rxAcc hm =>
    refine hm.imp fun op hop j hj => ?_
    rw [hop.lineOf] at hj
    contradiction
  | constructFramed | constructRaw | ufRx | urTx | urRx | deliver | readError => trivial
  | ufShutdown | urShutdown | ufRelease | urClose | sendDone => exact fun j hj => Option.some.inj hj
  | ufJoin | ufClose | urDrain | urFlag | urJoin | sendLock | sendToTx | sendByte | sendQuiet | sendToRx =>
    exact ⟨fun j hj => Option.some.inj hj, fun j hj => Option.some.inj hj⟩

end

/-! ### Every step -/

/-- Every operation on a line finds its controller. -/
def LineHome (uarts : List Uart) (ops : List (Nat × HostOp)) : Prop :=
  ∀ t op, (t, op) ∈ ops → ∀ i, op.lineOf = some i → ∃ u, uarts[i]? = some u

section
variable {s : State} {m : OpMove}

/-- A move of operations that have no line. -/
theorem lineInv_of_no_line {uarts : List Uart} {ops : List (Nat × HostOp)} (hT : TicketInv s) (hv : m.Valid s)
    (hm : m.Of (fun op => op.lineOf = none)) (hline : ∀ i u, uarts[i]? = some u → LineAt i u s.ops)
    (hhome : LineHome uarts s.ops) (hops : ops = (m.apply s).ops) :
    (∀ i u, uarts[i]? = some u → LineAt i u ops) ∧ LineHome uarts ops := by
  have hsame (e : Nat × HostOp) (i : Nat) (he : e.2.lineOf = some i) : e ∈ ops ↔ e ∈ s.ops := by
    rw [hops]
    exact OpMove.mem_apply_ops_of_not hT hv hm (by simp [he])
  exact ⟨fun i u hu => (hline i u hu).congr (.refl u) fun e he => hsame e i he,
    fun t op hop i hi => hhome t op ((hsame (t, op) i hi).1 hop) i hi⟩

theorem LifeRow.lineOf {e : Stimulus} {r : Radio} (h : LifeRow e s m r) : m.Of (fun op => op.lineOf = none) := by
  refine h.radioLife.imp fun op hop => ?_
  cases op with
  | rdConstruct | rdShutdown => rfl
  | send | readFrame | ufShutdown | urWrite | urRead | urShutdown | rdTransmit | rdReceive => contradiction

theorem TrafficRow.lineOf {r : Radio} (h : TrafficRow s m r) : m.Of (fun op => op.lineOf = none) := by
  refine h.ops.imp fun op hop => ?_
  cases op with
  | rdTransmit | rdReceive => rfl
  | send | readFrame | ufShutdown | urWrite | urRead | urShutdown | rdConstruct | rdShutdown => exact hop.elim

/-- A hardware reset leaves what is on the line, and nothing in progress. -/
theorem LineAt.hardReset {i : Nat} {u : Uart} {ops : List (Nat × HostOp)} (h : LineAt i u ops) :
    LineAt i u.hardReset [] where
  out := h.out
  fresh _ := ⟨rfl, rfl, rfl⟩
  running hlc := by contradiction
  raw hne := absurd rfl hne
  batch hq := by obtain hq | hq := hq <;> contradiction
  dir hd := by contradiction
  ops := by simp

/-- A controller issues a send while it runs in framed mode. -/
theorem LineAt.issue_send {i : Nat} {u : Uart} (h : LineAt i u s.ops) {f : List Byte} (hlc : u.lc = .running)
    (hm : u.mode = .framed) : LineAt i u (s.issued (.send i f .waitLock)).ops where
  out := h.out
  fresh := h.fresh
  running := h.running
  raw := h.raw
  batch := h.batch
  dir hd := (h.dir hd).imp_right (Or.imp_right fun ⟨t, f, q, hop, hq⟩ => ⟨t, f, q, List.mem_append_left _ hop, hq⟩)
  ops t op hop := by
    obtain hop | hop := List.mem_append.1 hop
    · exact h.ops t op hop
    · cases List.mem_singleton.1 hop
      exact fun _ => ⟨hlc, hm, by simp [SendSeq.locked], by simp [SendSeq.transmitting]⟩

end

theorem Effect.lineInv {e : Stimulus} {s t : State} (h : Effect e s t) (hinv : LineInv s) : LineInv t := by
  obtain ⟨hT, hline, hhome⟩ := (lineInv_iff s).1 hinv
  refine (lineInv_iff t).2 ⟨h.ticketInv hT, ?_⟩
  cases h with
  | idle => exact ⟨hline, hhome⟩
  | answer r => exact ⟨hline, hhome⟩
  | crc w c r => exact ⟨hline, hhome⟩
  | send i f u hu hlc hm =>
    refine ⟨fun j w hw => ?_, fun t op hop j hj => ?_⟩
    · by_cases hij : i = j
      · subst hij
        cases hu.symm.trans hw
        exact (hline i u hu).issue_send hlc hm
      · refine (hline j w hw).congr (.refl w) fun e he => ?_
        have hne : e ≠ (s.nextTicket, .send i f .waitLock) := by
          rintro rfl
          exact hij (Option.some.inj he)
        simp [hne]
    · obtain hop | hop := List.mem_append.1 hop
      · exact hhome t op hop j hj
      · cases List.mem_singleton.1 hop
        cases hj
        exact ⟨u, hu⟩
  | life m r tape limits d hi hv hrow =>
    rw [OpMove.apply_uarts]
    exact lineInv_of_no_line hT hv hrow.lineOf hline hhome (m.apply_ops_congr rfl rfl)
  | traffic m r tape limits d hi hv hrow =>
    rw [OpMove.apply_uarts]
    exact lineInv_of_no_line hT hv hrow.lineOf hline hhome (m.apply_ops_congr rfl rfl)
  | uart i u v m hi hu hv hrow =>
    have hget (j : Nat) (hij : i ≠ j) : (s.setUart i v).uarts[j]? = s.uarts[j]? := List.getElem?_set_ne hij
    rw [OpMove.apply_uarts, OpMove.apply_ops_congr (s := s) (x := s.setUart i v) m rfl rfl]
    refine ⟨fun j w hw => ?_, fun t op hop j hj => ?_⟩
    · by_cases hij : i = j
      · subst hij
        cases (s.setUart_get i u v hu).symm.trans hw
        exact hrow.lineAt hT hv (hline i u hu)
      · rw [hget j hij] at hw
        exact (hline j w hw).congr (.refl w) fun e he =>
          OpMove.mem_apply_ops_of_not hT hv hrow.lineOf fun hall => hij (hall j he)
    · by_cases hij : i = j
      · subst hij
        exact ⟨v, s.setUart_get i u v hu⟩
      · rw [hget j hij]
        obtain hop | htarget := OpMove.mem_of_mem_apply hop
        · exact hhome t op hop j hj
        · exact absurd (hrow.lineOf.target htarget j hj) hij
  | hardReset =>
    refine ⟨fun j w hw => ?_, by simp [State.hardReset]⟩
    obtain ⟨u, hu, rfl⟩ := Option.map_eq_some_iff.1 (List.getElem?_map.symm.trans hw)
    exact (hline j u hu).hardReset

/-- Settles O57. -/
theorem lineInvKept : Obligations.LineInvKept := by
  unfold Obligations.LineInvKept
  intro s t hinv h
  obtain ⟨-, rfl⟩ | ⟨e, rest, hs, heff⟩ := step_effect h
  · exact hinv
  · exact heff.lineInv (s := { s with script := rest }) hinv

end Sys2Proof.Machine
end

section
/-! PROOFS. The scanner and the configuration of the UART controllers, and controllers that are shut or closed (41_framer.md R182; 10_state.md R38, R39; 20_memory.md R102). -/

namespace Sys2Proof.Machine

section
variable {e : Stimulus} {s t : State} {i : Nat} {u v : Uart} {m : OpMove}

/-- What every row and a hardware reset keep of one controller, every step keeps of all of them. -/
theorem Effect.forall_uarts {P : Uart → Prop} (h : Effect e s t) (hreset : ∀ u : Uart, P u.hardReset)
    (hrow : ∀ i u v m, UartRow s i u m v → P u → P v) (hinv : ∀ u ∈ s.uarts, P u) : ∀ v ∈ t.uarts, P v := by
  by_cases he : e = .hardReset
  · cases h with
    | hardReset =>
      intro v hv
      obtain ⟨u, -, rfl⟩ := List.mem_map.1 hv
      exact hreset u
    | idle => exact hinv
    | answer r => exact hinv
    | send i f u => exact hinv
    | crc w c r hw => rw [he] at hw; contradiction
    | uart i u v m hi => rw [he] at hi; contradiction
    | life => rw [OpMove.apply_uarts]; exact hinv
    | traffic => rw [OpMove.apply_uarts]; exact hinv
  · intro v hv
    obtain ⟨i, hi⟩ := List.mem_iff_getElem?.1 hv
    obtain hold | ⟨u, m, hu, hr⟩ := h.row_of_get he hi
    · exact hinv v (List.mem_of_getElem? hold)
    · exact hrow i u v m hr (hinv u (List.mem_of_getElem? hu))

/-! ### The scanner (R42, R43, R182) -/

theorem Uart.receive_scanInv (h : u.ScanInv) : u.receive.ScanInv := by
  obtain ⟨hagrees, hrxq⟩ := h
  exact ⟨(hagrees.scan_append_agrees u.rxAvail).2, List.forall_mem_append.2 ⟨hrxq, scan_out_length _⟩⟩

/-- A row that leaves the scanner alone. -/
theorem Uart.ScanInv.congr (h : u.ScanInv) (hv : v.rxBuf = u.rxBuf ∧ v.rxq = u.rxq ∧ v.scanRegs = u.scanRegs) :
    v.ScanInv := by
  obtain ⟨hbuf, hrxq, hregs⟩ := hv
  rw [Uart.ScanInv, hbuf, hrxq, hregs]
  exact h

theorem Uart.ufRxStep_scanInv (h : u.ScanInv) : u.ufRxStep.ScanInv := by
  unfold Uart.ufRxStep
  split
  · exact h
  · exact h
  · split_ifs
    · exact h
    · exact h
    · exact Uart.receive_scanInv h
    · exact h

theorem Uart.urTxStep_scanInv (c : Config) (h : u.ScanInv) : (u.urTxStep c).ScanInv := by
  unfold Uart.urTxStep
  split
  · split_ifs <;> exact h
  · exact h
  · obtain ⟨o, a, l, htx, -⟩ := Uart.txAll_spec c u.txBatch u
    rw [htx]
    exact h
  · exact h
  · exact h

theorem Uart.urRxStep_scanInv (h : u.ScanInv) : u.urRxStep.ScanInv := by
  unfold Uart.urRxStep
  split
  · split_ifs <;> exact h
  · split_ifs <;> exact h
  · exact h

theorem UartRow.scanInv (hrow : UartRow s i u m v) (h : u.ScanInv) : v.ScanInv := by
  cases hrow with
  | constructFramed => exact ⟨.inl ⟨rfl, rfl⟩, by simp [Uart.constructFramed]⟩
  | queues m rxq txPend rxAcc hm hrxq => exact ⟨h.1, fun p hp => h.2 p (hrxq p hp)⟩
  | sendByte t f q q' b =>
    obtain ⟨o, a, l, htx, -⟩ := Uart.tx_spec s.cfg u b
    rw [htx]
    exact h
  | ufRx => exact Uart.ufRxStep_scanInv h
  | urTx => exact Uart.urTxStep_scanInv s.cfg h
  | urRx => exact Uart.urRxStep_scanInv h
  | deliver bs =>
    obtain ⟨a, l, hd⟩ := Uart.deliver_spec s.cfg bs u
    rw [hd]
    exact h
  | constructRaw | ufShutdown | ufJoin | ufClose | ufRelease | urShutdown | urDrain | urFlag | urJoin | urClose
  | sendLock | sendToTx | sendQuiet | sendToRx | sendDone | readError => exact h

/-! ### The configuration (R38) -/

/-- Constructed or not as before, with the same configuration, TXLOCK and RXLOCK. -/
structure Uart.SameConfig (u v : Uart) : Prop where
  constructed : v.lc = .unconstructed ↔ u.lc = .unconstructed
  mode : v.mode = u.mode
  baud : v.baud = u.baud
  databits : v.databits = u.databits
  stopbits : v.stopbits = u.stopbits
  parity : v.parity = u.parity
  txLock : v.txLock = u.txLock
  rxLock : v.rxLock = u.rxLock

theorem Uart.SameConfig.refl (u : Uart) : u.SameConfig u := ⟨Iff.rfl, rfl, rfl, rfl, rfl, rfl, rfl, rfl⟩

theorem Uart.ufRxStep_sameConfig (u : Uart) : u.SameConfig u.ufRxStep := by
  unfold Uart.ufRxStep
  split
  · exact .refl u
  · exact ⟨Iff.rfl, rfl, rfl, rfl, rfl, rfl, rfl, rfl⟩
  · split_ifs <;> exact ⟨Iff.rfl, rfl, rfl, rfl, rfl, rfl, rfl, rfl⟩

theorem Uart.urTxStep_sameConfig (c : Config) (u : Uart) : u.SameConfig (u.urTxStep c) := by
  unfold Uart.urTxStep
  split
  · split_ifs <;> exact ⟨Iff.rfl, rfl, rfl, rfl, rfl, rfl, rfl, rfl⟩
  · exact ⟨Iff.rfl, rfl, rfl, rfl, rfl, rfl, rfl, rfl⟩
  · obtain ⟨o, a, l, htx, -⟩ := Uart.txAll_spec c u.txBatch u
    rw [htx]
    exact ⟨Iff.rfl, rfl, rfl, rfl, rfl, rfl, rfl, rfl⟩
  · exact ⟨Iff.rfl, rfl, rfl, rfl, rfl, rfl, rfl, rfl⟩
  · exact .refl u

theorem Uart.urRxStep_sameConfig (u : Uart) : u.SameConfig u.urRxStep := by
  unfold Uart.urRxStep
  split
  · split_ifs <;> exact ⟨Iff.rfl, rfl, rfl, rfl, rfl, rfl, rfl, rfl⟩
  · split_ifs <;> exact ⟨Iff.rfl, rfl, rfl, rfl, rfl, rfl, rfl, rfl⟩
  · exact .refl u

/-- A row leaves the configuration alone, or constructs the controller with a legal one. -/
theorem UartRow.sameConfig_or (hrow : UartRow s i u m v) : u.SameConfig v
    ∨ (u.lc = .unconstructed ∧ v.ConfigLegal ∧ v.txLock = u.txLock ∧ v.rxLock = u.rxLock) := by
  cases hrow with
  | constructFramed baud r hlc hbaud => exact .inr ⟨hlc, ⟨hbaud, rfl, rfl, rfl⟩, rfl, rfl⟩
  | constructRaw c r hlc hbaud hbits hstop => exact .inr ⟨hlc, ⟨hbaud, hbits, hstop⟩, rfl, rfl⟩
  | ufShutdown hlc => exact .inl ⟨by simp [hlc], rfl, rfl, rfl, rfl, rfl, rfl, rfl⟩
  | urShutdown hlc => exact .inl ⟨by simp [hlc], rfl, rfl, rfl, rfl, rfl, rfl, rfl⟩
  | sendByte t f q q' b =>
    obtain ⟨o, a, l, htx, -⟩ := Uart.tx_spec s.cfg u b
    rw [htx]
    exact .inl ⟨Iff.rfl, rfl, rfl, rfl, rfl, rfl, rfl, rfl⟩
  | ufRx => exact .inl u.ufRxStep_sameConfig
  | urTx => exact .inl (u.urTxStep_sameConfig s.cfg)
  | urRx => exact .inl u.urRxStep_sameConfig
  | deliver bs =>
    obtain ⟨a, l, hd⟩ := Uart.deliver_spec s.cfg bs u
    rw [hd]
    exact .inl ⟨Iff.rfl, rfl, rfl, rfl, rfl, rfl, rfl, rfl⟩
  | queues | ufJoin | ufClose | ufRelease | urDrain | urFlag | urJoin | urClose | sendLock | sendToTx | sendQuiet
  | sendToRx | sendDone | readError => exact .inl ⟨Iff.rfl, rfl, rfl, rfl, rfl, rfl, rfl, rfl⟩

/-- A constructed controller is legally configured, and TXLOCK and RXLOCK are free. -/
def Uart.ConfigInv (u : Uart) : Prop :=
  (u.lc ≠ .unconstructed → u.ConfigLegal) ∧ u.txLock = .free ∧ u.rxLock = .free

theorem Uart.SameConfig.configLegal (h : u.SameConfig v) (hu : u.ConfigLegal) : v.ConfigLegal := by
  rw [Uart.ConfigLegal, h.mode, h.baud, h.databits, h.stopbits, h.parity]
  exact hu

theorem UartRow.configInv (hrow : UartRow s i u m v) (h : u.ConfigInv) : v.ConfigInv := by
  obtain ⟨hlegal, htx, hrx⟩ := h
  obtain hsame | ⟨-, hlegal', htx', hrx'⟩ := hrow.sameConfig_or
  · exact ⟨fun hlc => hsame.configLegal (hlegal fun hu => hlc (hsame.constructed.2 hu)), hsame.txLock.trans htx,
      hsame.rxLock.trans hrx⟩
  · exact ⟨fun _ => hlegal', htx'.trans htx, hrx'.trans hrx⟩

/-- A constructed controller stays so, with its configuration. -/
theorem Effect.config_kept (h : Effect e s t) (he : e ≠ .hardReset) (hu : s.uarts[i]? = some u)
    (hlc : u.lc ≠ .unconstructed) : ∃ v, t.uarts[i]? = some v ∧ u.SameConfig v := by
  obtain heq | ⟨-, u', v, m, hu', hv, hrow⟩ := h.uart_eq_or_row he i
  · exact ⟨u, heq.trans hu, .refl u⟩
  · cases hu.symm.trans hu'
    obtain hsame | ⟨hlc', -⟩ := hrow.sameConfig_or
    · exact ⟨v, hv, hsame⟩
    · exact absurd hlc' hlc

/-! ### Controllers that are shut or closed -/

/-- What a row of a UART controller must keep: SHUT, the line of a closed UART, and the rest after a shutdown. -/
structure Uart.RestKept (u v : Uart) : Prop where
  shut : u.lc = .shut → v.lc = .shut
  closed : u.uartOpen = false → v.lineOut = u.lineOut ∧ v.lineIn = u.lineIn
  terminated : u.Terminated → v.Terminated

theorem Uart.RestKept.refl (u : Uart) : u.RestKept u := ⟨id, fun _ => ⟨rfl, rfl⟩, id⟩

theorem Uart.SameLine.terminated (h : u.SameLine v) (hu : u.Terminated) : v.Terminated := by
  obtain ⟨hlc, -, hopen, hdir, hreq, -, htx, -⟩ := h
  rw [Uart.Terminated, hlc, hopen, hdir, hreq, htx]
  exact hu

/-- A row on a controller that is not SHUT. -/
theorem Uart.RestKept.of_not_shut (hlc : u.lc ≠ .shut)
    (hclosed : u.uartOpen = false → v.lineOut = u.lineOut ∧ v.lineIn = u.lineIn) : u.RestKept v :=
  ⟨fun h => absurd h hlc, hclosed, fun h => absurd h.1 hlc⟩

theorem Uart.RestKept.of_sameLine (h : u.SameLine v) (hin : v.lineIn = u.lineIn) : u.RestKept v :=
  ⟨fun hlc => h.1.trans hlc, fun _ => ⟨h.2.2.2.2.2.2.2, hin⟩, h.terminated⟩

theorem Uart.ufRxStep_lineIn (u : Uart) : u.ufRxStep.lineIn = u.lineIn := by
  unfold Uart.ufRxStep
  split
  · rfl
  · rfl
  · split_ifs <;> rfl

theorem Uart.urRxStep_lineIn (u : Uart) : u.urRxStep.lineIn = u.lineIn := by
  unfold Uart.urRxStep
  split
  · split_ifs <;> rfl
  · split_ifs <;> rfl
  · rfl

/-- UR_TX of a closed UART puts nothing on the line. -/
theorem Uart.urTxStep_closed (c : Config) (ho : u.uartOpen = false) :
    (u.urTxStep c).lineOut = u.lineOut ∧ (u.urTxStep c).lineIn = u.lineIn := by
  unfold Uart.urTxStep
  split
  · split_ifs <;> exact ⟨rfl, rfl⟩
  · exact ⟨rfl, rfl⟩
  · rw [Uart.txAll_closed c _ u ho]
    exact ⟨rfl, rfl⟩
  · exact ⟨rfl, rfl⟩
  · exact ⟨rfl, rfl⟩

theorem Uart.urTxStep_lc (c : Config) (u : Uart) : (u.urTxStep c).lc = u.lc := by
  unfold Uart.urTxStep
  split
  · split_ifs <;> rfl
  · rfl
  · obtain ⟨o, a, l, htx, -⟩ := Uart.txAll_spec c u.txBatch u
    rw [htx]
  · rfl
  · rfl

/-- UR_TX of a controller whose shutdown is over is stopped, or stops. -/
theorem Uart.urTxStep_terminated (c : Config) (h : u.Terminated) : (u.urTxStep c).Terminated := by
  have hterm := h
  obtain ⟨hlc, hopen, hdir, hq⟩ := h
  have hnot {q : UrTxSeq} (hq' : u.seqUrTx = q) (hs : q ≠ .stopped) (hw : q ≠ .wait) : False := by
    obtain hq | ⟨hq, -⟩ := hq
    · exact hs (hq'.symm.trans hq)
    · exact hw (hq'.symm.trans hq)
  obtain hsame | ⟨-, -, hstep⟩ | ⟨hq', hreq, -⟩ | ⟨hq', -⟩ | ⟨hq', -⟩ | ⟨hq', -⟩ := Uart.urTxStep_sameLine_or c u
  · exact hsame.terminated hterm
  · rw [hstep]
    exact ⟨hlc, hopen, hdir, .inl rfl⟩
  · obtain hq | ⟨-, hreq'⟩ := hq
    · exact absurd (hq'.symm.trans hq) (by decide)
    · exact absurd (hreq.symm.trans hreq') (by decide)
  · exact (hnot hq' (by decide) (by decide)).elim
  · exact (hnot hq' (by decide) (by decide)).elim
  · exact (hnot hq' (by decide) (by decide)).elim

theorem UartRow.restKept (hrow : UartRow s i u m v) (hv : m.Valid s) (h : LineAt i u s.ops) : u.RestKept v := by
  have hsend {t : Nat} {f : List Byte} {q : SendSeq} (hop : (t, HostOp.send i f q) ∈ s.ops) : u.lc ≠ .shut := by
    simp [(h.send hop).1]
  cases hrow with
  | constructFramed baud r hlc => exact .of_not_shut (by simp [hlc]) fun _ => ⟨rfl, rfl⟩
  | constructRaw c r hlc => exact .of_not_shut (by simp [hlc]) fun _ => ⟨rfl, rfl⟩
  | ufShutdown hlc => exact .of_not_shut (by simp [hlc]) fun _ => ⟨rfl, rfl⟩
  | urShutdown hlc => exact .of_not_shut (by simp [hlc]) fun _ => ⟨rfl, rfl⟩
  | queues => exact ⟨id, fun _ => ⟨rfl, rfl⟩, id⟩
  | ufJoin | urDrain | urJoin => exact .refl u
  | ufClose t => exact ⟨id, fun _ => ⟨rfl, rfl⟩, fun ⟨hlc, _, hrest⟩ => ⟨hlc, rfl, hrest⟩⟩
  | ufRelease t r => exact ⟨id, fun _ => ⟨rfl, rfl⟩, fun ⟨hlc, ho, _, hq⟩ => ⟨hlc, ho, rfl, hq⟩⟩
  | urFlag t =>
    exact ⟨id, fun _ => ⟨rfl, rfl⟩, fun ⟨hlc, ho, hd, hq⟩ => ⟨hlc, ho, hd, hq.imp_right fun ⟨hw, _⟩ => ⟨hw, rfl⟩⟩⟩
  | urClose t r => exact ⟨id, fun _ => ⟨rfl, rfl⟩, fun ⟨hlc, _, _, hq⟩ => ⟨hlc, rfl, rfl, hq⟩⟩
  | sendByte t f q q' b =>
    refine .of_not_shut (hsend (OpMove.move_mem hv)) fun ho => ?_
    rw [Uart.tx_closed s.cfg u b ho]
    exact ⟨rfl, rfl⟩
  | sendLock | sendToTx | sendQuiet | sendToRx =>
    exact .of_not_shut (hsend (OpMove.move_mem hv)) fun _ => ⟨rfl, rfl⟩
  | sendDone => exact .of_not_shut (hsend (OpMove.finish_mem hv)) fun _ => ⟨rfl, rfl⟩
  | ufRx => exact .of_sameLine u.ufRxStep_sameLine u.ufRxStep_lineIn
  | urTx =>
    exact ⟨(u.urTxStep_lc s.cfg).trans, Uart.urTxStep_closed s.cfg, Uart.urTxStep_terminated s.cfg⟩
  | urRx => exact .of_sameLine u.urRxStep_sameLine u.urRxStep_lineIn
  | deliver bs =>
    refine ⟨(u.deliver_sameLine s.cfg bs).1.trans, fun ho => ?_, (u.deliver_sameLine s.cfg bs).terminated⟩
    rw [Uart.deliver_deaf s.cfg bs u (.inl ho)]
    exact ⟨rfl, rfl⟩
  | readError => exact ⟨id, fun _ => ⟨rfl, rfl⟩, id⟩

theorem Effect.restKept (h : Effect e s t) (he : e ≠ .hardReset) (hinv : LineInv s) (hu : s.uarts[i]? = some u) :
    ∃ v, t.uarts[i]? = some v ∧ u.RestKept v := by
  obtain ⟨-, hline, -⟩ := (lineInv_iff s).1 hinv
  cases h with
  | uart j u' v m hj hu' hv hrow =>
    rw [OpMove.apply_uarts]
    by_cases hij : i = j
    · subst hij
      cases hu.symm.trans hu'
      exact ⟨v, s.setUart_get i u v hu, hrow.restKept hv (hline i u hu)⟩
    · exact ⟨u, (List.getElem?_set_ne (Ne.symm hij)).trans hu, .refl u⟩
  | idle | answer | send | crc => exact ⟨u, hu, .refl u⟩
  | life | traffic => rw [OpMove.apply_uarts]; exact ⟨u, hu, .refl u⟩
  | hardReset h => exact absurd h he

end

/-- Settles O58. -/
theorem uartInvsKept : Obligations.UartInvsKept := by
  unfold Obligations.UartInvsKept
  refine ⟨fun s t hinv h => ?_, fun s t hinv h => ?_, fun s t i u h hreset hu hlc => ?_,
    fun s t i u hinv h hreset hu => ?_⟩ <;> obtain ⟨-, rfl⟩ | ⟨e, rest, hs, heff⟩ := step_effect h
  · exact hinv
  · exact heff.forall_uarts (P := Uart.ScanInv) (fun _ => uart_reset_scanInv) (fun _ _ _ _ => UartRow.scanInv) hinv
  · exact hinv
  · exact heff.forall_uarts (P := Uart.ConfigInv) (fun _ => ⟨fun hlc => absurd rfl hlc, rfl, rfl⟩)
      (fun _ _ _ _ => UartRow.configInv) hinv
  · exact ⟨u, hu, hlc, rfl, rfl, rfl, rfl, rfl⟩
  · obtain ⟨v, hv, hc⟩ := heff.config_kept (fun he => hreset rest (he ▸ hs)) hu hlc
    exact ⟨v, hv, mt hc.constructed.1 hlc, hc.mode, hc.baud, hc.databits, hc.stopbits, hc.parity⟩
  · exact ⟨u, hu, id, fun _ => ⟨rfl, rfl⟩, id⟩
  · obtain ⟨v, hv, hr⟩ := heff.restKept (s := { s with script := rest }) (fun he => hreset rest (he ▸ hs)) hinv hu
    exact ⟨v, hv, hr.shut, hr.closed, hr.terminated⟩

end Sys2Proof.Machine
end
